-- ==== Sys2Proof/Word.lean ====
section
/-! DEFINITION. The word types of the OTH2416: bytes, 16-bit quantities, 32-bit addresses and registers, lane numbers. -/

namespace Sys2Proof

/-- One byte of system memory (10 R165). -/
abbrev Byte := BitVec 8

/-- A 16-bit quantity: serials, rows, lines, columns, colours and strides as stored (10 R165). -/
abbrev Half := BitVec 16

/-- A 32-bit quantity: addresses, registers, the frame count (10 R165, 09 R157). -/
abbrev Word := BitVec 32

/-- A lane number, 0 to 3 (00_scope, Conventions). -/
abbrev Lane := Fin 4

end Sys2Proof
end

