-- ==== Sys2Proof/Config.lean ====
section
/-! DEFINITION. The numbers the manual fixes for every OTH2416, and the free values it leaves open. -/

namespace Sys2Proof

/-- How a stored value stands against its check code (01 R2): a fault of one bit is corrected in the delivered
data; a fault the code cannot correct damages the line. A value with neither carries no flaw. -/
inductive Flaw where
  | single         -- a single-bit fault: corrected on delivery, kept in the store until the next write
  | uncorrectable  -- a fault the check code cannot correct
  deriving DecidableEq, Repr

namespace Config

/-- Panel rows 0 to 239 (01 R5). -/
abbrev rows : Nat := 240

/-- Panel columns 0 to 319 (01 R1). -/
abbrev columns : Nat := 320

/-- Store lines 0 to 383 (01 R1). -/
abbrev storeLines : Nat := 384

/-- The marked count above which the part will not start (01 R4, 07 R129). -/
abbrev damageLimit : Nat := 16

/-- Units of the model's clock in one microsecond (log 3): with 64 of them the row time of 04 R73 is whole. -/
abbrev unitsPerMicrosecond : Nat := 64

/-- Units of the model's clock in 100 microseconds, the unit of the plan's frame period (07 R128). -/
abbrev unitsPer100us : Nat := 100 * unitsPerMicrosecond

/-- The ramp up of 20 ms (07 R144). -/
abbrev rampUpTime : Nat := 20000 * unitsPerMicrosecond

/-- The ramp down of 10 ms (07 R144). -/
abbrev rampDownTime : Nat := 10000 * unitsPerMicrosecond

/-- The commit mark pulse of 2 microseconds (09 R163). -/
abbrev markPulseTime : Nat := 2 * unitsPerMicrosecond

/-- FREE VALUE (log 7): the value at a column of a line after the n-th power-on reset, before anything is written
there: "the contents and check codes of all 384 lines are unknown" (01 R1). -/
opaque powerOnValue : (powerOns line column : Nat) → Half

/-- FREE VALUE (log 7): the flaw, if any, of such a value: its check code is unknown too (01 R1). -/
opaque powerOnFlaw : (powerOns line column : Nat) → Option Flaw

end Config
end Sys2Proof
end

