-- ==== Sys2Proof/Syntax.lean ====
section
/-! DEFINITION. The commands of the block: one constructor of `Instr` for each row of spec/opcode_table.json, with
the operands this model gives them (the table gives none; log 2 to log 8). -/

namespace Sys2Proof

/-- How a transfer on the system bus ended (09 R164), as the outside gives it. `host`: the bytes the host wrote into
system memory before the transfer took place, oldest first (log 4). `error`: none when the transfer completed; on a
bus error, the offsets of the bytes that a write left in memory all the same, "as the bus left it" (08 R153, log 5). -/
structure BusEvent where
  host  : List (Word × Byte)
  error : Option (List Nat)
  deriving DecidableEq, Repr

/-- The four units whose bus WRITES a reset can find begun (03 R71, 04 R92, 05 R114, 09 R164). -/
inductive BusUnit where
  | laneService | engine | commitUnit | recorder
  deriving DecidableEq, Repr

/-- The bus write that had begun when a reset arrived, if one had, and how it ends (09 R164, log 6). -/
abbrev Begun := Option (BusUnit × BusEvent)

/-- How a part command reaches the Mode Controller (09 R160, log 11): by a 32-bit CMD write of its code with five
enables (bit 0 is NOTIFY's, as bit 16 of CMD), or handed over from the waiting place of the command slot. -/
inductive CmdSource where
  | write (enables : BitVec 5)
  | handedOver
  deriving DecidableEq, Repr

/-- The five pending flags, in the order of their positions in STS (09 R157). -/
inductive Flag where
  | notify | fault | lane | done | overflow
  deriving DecidableEq, Repr

/-- Who asked the Line Store for a line read (01 R1): the Apply Engine or the Scan Unit. The check read of an alias
source is made within the alias claim. -/
inductive LineReader where
  | engine | scanUnit
  deriving DecidableEq, Repr

/-- Who asked the Line Store for a whole-line write (01 R1). -/
inductive LineWriter where
  | engine | modeController
  deriving DecidableEq, Repr

/-- Who sends the Lane Service a set's end report (05 R105). -/
inductive EndReporter where
  | engine | commitUnit
  deriving DecidableEq, Repr

/-- Who sends the Fault Recorder a fault request (08 R147). -/
inductive FaultSender where
  | laneService | engine | scanUnit | lineStore
  deriving DecidableEq, Repr

/-- One command for each row of spec/opcode_table.json. `bus` is how the bus transfer in question ended; `moment` is
the time on the model's clock at which a timed step happens (log 3); `begun` is the bus write a reset found begun;
`flaws` are the flaws that have come up in the line being read, by column (01 R2, log 8). -/
inductive Instr where
  -- the reset pin, the register window (Chapter 9)
  | powerOnReset (begun : Begun)
  | start (source : CmdSource)
  | planRead (bus : BusEvent)
  | stop (source : CmdSource)
  | sleep (source : CmdSource)
  | wake (source : CmdSource)
  | reset (begun : Begun)
  | enableWrite (value : Word)
  | exbWrite (value : Word)
  | stsWrite (value : Word)
  | registerWriteIgnored (offset width : Nat) (value : Word)
  -- the Mode Controller (Chapter 7)
  | startingLineFill
  | laneSetup (bus : BusEvent)
  | setupComplete
  | rampUpEnd (moment : Nat)
  | rampDownEnd (moment : Nat)
  | sleepingQuiesced
  | stoppingEngineIdle
  | stoppingComplete
  | boundaryEvaluation
  | damageLimitReport
  | recorderFailureReport
  -- the Scan Unit and the Commit Unit (Chapter 4)
  | frameStart (moment : Nat)
  | rowOutput (moment : Nat)
  | beginOrder
  | beginWithBlankFrame
  | frameCadence
  | heldCadence
  | finishOrder
  | haltScanning
  | commitBoundary
  | publicationComplete
  | commitMarkEnd (moment : Nat)
  | publicationReport
  | committedOutcomeWrite (bus : BusEvent)
  | readyAppend
  -- the Lane Service (Chapter 5)
  | laneBoundary
  | laneRequestRead (bus : BusEvent)
  | nextLinkRead (bus : BusEvent)
  | headerRead (bus : BusEvent)
  | laneRecordWrite (bus : BusEvent)
  | endReport (reporter : EndReporter)
  | completionReport
  | stopNotice
  | pollReport
  -- the Grant Arbiter (Chapter 6)
  | eligibilityReport
  | grantRequest
  | grant
  | grantAnswer
  | arbiterBoundary
  -- the Apply Engine (Chapter 3)
  | trailerReadStart (bus : BusEvent)
  | opRecordRead (bus : BusEvent)
  | writeClaimAnswer
  | engineLineReadAnswer
  | engineLineWriteDone
  | aliasClaimAnswer
  | shiftClaimAnswer
  | viewReadAnswer
  | sourceRowRead (bus : BusEvent)
  | readbackRowWrite (bus : BusEvent)
  | trailerReadEnd (bus : BusEvent)
  | unwindAnswer
  | abortOutcomeWrite (bus : BusEvent)
  | releaseNotice
  | abortRequestStop
  | abortRequestLane
  -- the Map Unit and the Line Store (Chapter 1)
  | viewRead
  | liveRead
  | writeClaim
  | aliasClaim (flaws : List (Nat × Flaw))
  | shiftClaim
  | unwindClaim
  | publishClaim
  | markNotice
  | lineRead (reader : LineReader) (flaws : List (Nat × Flaw))
  | wholeLineWrite (writer : LineWriter)
  | spanWrite
  -- the Fault Recorder and the pending flags (Chapters 8 and 9)
  | faultRequest (sender : FaultSender)
  | faultSearchRead (bus : BusEvent)
  | faultEntryWrite (bus : BusEvent)
  | overflowClear
  | flagSetRequest (flag : Flag)
  | commandResult
  | resetPinAsserted (begun : Begun)
  | sleepStopEndingsDone
  deriving DecidableEq, Repr

end Sys2Proof
end

