-- ==== Sys2Proof/WellFormed.lean ====
section
/-! DEFINITION. Which commands are well formed: what their operands must satisfy to describe an event the manual
knows. `exec` is defined on every command all the same. -/

namespace Sys2Proof

/-- 09 R158: the ignored register writes are those to FRC (0Ch), those of fewer than 32 bits, and those above 0Ch. The
spec does not say what a 32-bit write does at an offset below 0Ch that is no multiple of 4: it is ignored too, DESIGN
CHOICE (log 43). -/
def ignoredWriteOk (offset width : Nat) : Bool :=
  offset == 0x0C || (1 ≤ width && width < 4) || 0x0C < offset || offset % 4 != 0

/-- 09 R160: a CMD write of the code RESET (5) is the row RESET, which says what bus write had begun; ENABLE_WRITE
stands for the other codes (log 12). -/
def enableWriteOk (value : Word) : Bool :=
  value.extractLsb' 0 4 != 5#4

/-- 01 R1: a flaw lies in one of the 320 columns. -/
def flawsOk (flaws : List (Nat × Flaw)) : Bool :=
  flaws.all fun f => f.1 < Config.columns

/-- The widest record write of the part other than a readback row is 16 bytes and a readback row is at most 640 bytes
(09 R164), so the bytes a failed write left are at offsets below 640. -/
def busOk (bus : BusEvent) : Bool :=
  match bus.error with
  | none => true
  | some landed => landed.all (· < 640)

/-- The same for the transaction a reset found begun. -/
def begunOk (begun : Begun) : Bool :=
  match begun with
  | none => true
  | some (_, bus) => busOk bus

/-- Well-formed commands. -/
def Instr.wellFormed : Instr → Bool
  | .registerWriteIgnored offset width _ => ignoredWriteOk offset width
  | .enableWrite value => enableWriteOk value
  | .lineRead _ flaws => flawsOk flaws
  | .aliasClaim flaws => flawsOk flaws
  | .powerOnReset begun => begunOk begun
  | .reset begun => begunOk begun
  | .resetPinAsserted begun => begunOk begun
  | .planRead bus => busOk bus
  | .laneSetup bus => busOk bus
  | .committedOutcomeWrite bus => busOk bus
  | .laneRequestRead bus => busOk bus
  | .nextLinkRead bus => busOk bus
  | .headerRead bus => busOk bus
  | .laneRecordWrite bus => busOk bus
  | .trailerReadStart bus => busOk bus
  | .opRecordRead bus => busOk bus
  | .sourceRowRead bus => busOk bus
  | .readbackRowWrite bus => busOk bus
  | .trailerReadEnd bus => busOk bus
  | .abortOutcomeWrite bus => busOk bus
  | .faultSearchRead bus => busOk bus
  | .faultEntryWrite bus => busOk bus
  | .start _ | .stop _ | .sleep _ | .wake _ | .exbWrite _ | .stsWrite _ | .startingLineFill | .setupComplete
  | .rampUpEnd _ | .rampDownEnd _ | .sleepingQuiesced | .stoppingEngineIdle | .stoppingComplete
  | .boundaryEvaluation | .damageLimitReport | .recorderFailureReport | .frameStart _ | .rowOutput _
  | .beginOrder | .beginWithBlankFrame | .frameCadence | .heldCadence | .finishOrder | .haltScanning
  | .commitBoundary | .publicationComplete | .commitMarkEnd _ | .publicationReport | .readyAppend
  | .laneBoundary | .endReport _ | .completionReport | .stopNotice | .pollReport | .eligibilityReport
  | .grantRequest | .grant | .grantAnswer | .arbiterBoundary | .writeClaimAnswer | .engineLineReadAnswer
  | .engineLineWriteDone | .aliasClaimAnswer | .shiftClaimAnswer | .viewReadAnswer | .unwindAnswer
  | .releaseNotice | .abortRequestStop | .abortRequestLane | .viewRead | .liveRead | .writeClaim | .shiftClaim
  | .unwindClaim | .publishClaim | .markNotice | .wholeLineWrite _ | .spanWrite | .faultRequest _
  | .overflowClear | .flagSetRequest _ | .commandResult | .sleepStopEndingsDone => true

end Sys2Proof
end

