-- ==== Sys2Proof/Decode.lean ====
section
/-! DEFINITION. Words that spell commands. The part has no instruction words: no row of spec/opcode_table.json gives
bits, so no word spells a command. -/

namespace Sys2Proof

/-- The command a word spells by the table's bits: none, for no row of the table gives bits ("fields": [] on each of
the 85 rows). -/
def decodeTableWord (_nbits _w : Nat) : Option Instr := none

end Sys2Proof
end

