-- ==== Sys2Proof/Machine/State.lean ====
section
/-! DEFINITION. What the OTH2416 holds: one structure for each of its ten units, the messages under way between them,
system memory, and the queue of waiting commands; and the state right after power-on reset. All of it is plain data. -/

namespace Sys2Proof.Machine

/-! ## How a step can stop -/

/-- No step of this block stops: the faults the manual names (08 R147, R153) are recorded and acted on, and are
effects on the state. The type has no constructor. -/
inductive Fault
  deriving DecidableEq, Repr

/-- The only refusal: a row whose meaning is not written yet. Raised by an arm of `exec` alone; safe. -/
inductive Refusal where
  | notModelled (mnemonic : String)
  deriving DecidableEq, Repr

/-! ## Values shared by several units -/

/-- One value for each of the four lanes. -/
structure PerLane (α : Type) where
  lane0 : α
  lane1 : α
  lane2 : α
  lane3 : α
  deriving DecidableEq, Repr

/-- Part states (07 R127), with their codes of 09 R157 in this order. -/
inductive PartState where
  | off | starting | active | hold | sleeping | sleep | waking | stopping | faulted
  deriving DecidableEq, Repr

/-- The results of part commands (07 R132, 09 R157), with their codes in this order. -/
inductive CommandResult where
  | noResult | ok | refusedState | refusedBase | planInvalid | refusedBusy
  deriving DecidableEq, Repr

/-- The commands that go to the command slot (09 R160). -/
inductive PartCommand where
  | start | stop | sleep | wake
  deriving DecidableEq, Repr

/-- One flag for each of NOTIFY, FAULT, LANE, DONE and OVERFLOW (08 R155). -/
structure FlagSet where
  notify   : Bool
  fault    : Bool
  lane     : Bool
  done     : Bool
  overflow : Bool
  deriving DecidableEq, Repr

/-- The codes of fault requests (08 R147); LINK_FAULT is 1 and so on in this order. -/
inductive FaultCode where
  | linkFault | chainMisaligned | sequence | outcomeWrite | lineDamaged | damageLimit
  deriving DecidableEq, Repr

/-- A fault request as its sender gives it (08 R147); a field it does not use is none. -/
structure FaultRequest where
  code    : FaultCode
  lane    : Option Lane
  address : Option Word
  serial  : Option Half
  row     : Option Nat
  line    : Option Nat
  frame   : Option Word
  deriving DecidableEq, Repr

/-- Final outcomes of a set that the part writes, 1 to 10 in this order (02 R27). -/
inductive SetOutcome where
  | committed | malformed | badOp | zoneViolation | transferFault | storeError | torn | noRoom | dropped | stopped
  deriving DecidableEq, Repr

/-- The owning set of a staged entry: its lane and its serial (01 R6). -/
structure SetId where
  lane   : Lane
  serial : Half
  deriving DecidableEq, Repr

/-- The header copy of a set (02 R22): what the Lane Service read at fetch. `lane` and `opCount` are the bytes as
stored, for a malformed set holds values outside their ranges. -/
structure HeaderCopy where
  address : Word
  lane    : Byte
  serial  : Half
  opCount : Byte
  notify  : Bool
  deriving DecidableEq, Repr

/-! ## Register Port (Chapter 9) -/

/-- What the Register Port owns: EXB, the enables, the pending flags, the last result and the command slot; and
whether the reset pin is held active (09 R157 to R163). -/
structure RegisterPort where
  exb        : Word
  enables    : FlagSet
  flags      : FlagSet
  lastResult : CommandResult
  inHand     : Option PartCommand
  waiting    : Option PartCommand
  resetPin   : Bool
  deriving DecidableEq, Repr

/-! ## Mode Controller (Chapter 7) -/

/-- Mark modes of the plan (04 R88, 07 R128). -/
inductive MarkMode where
  | off | commit | every
  deriving DecidableEq, Repr

/-- One zone of the plan copy (07 R128). -/
structure Zone where
  firstRow : Nat
  rowCount : Nat
  owner    : Lane
  shown    : Bool
  deriving DecidableEq, Repr

/-- The plan copy (07 R128). `period` is P in units of 100 microseconds; `zones` has zone count entries. -/
structure Plan where
  format        : Half
  period        : Nat
  holdThreshold : Nat
  holdDivider   : Nat
  markMode      : MarkMode
  background    : Half
  faultColour   : Half
  zones         : List Zone
  deriving DecidableEq, Repr

/-- The condition of the panel (07 R144). -/
inductive Panel where
  | dark | rising | lit | falling
  deriving DecidableEq, Repr

/-- How far the command in hand has come at the Mode Controller (07 R132): none; handed over and not yet taken; a
START's plan read outstanding (R129); a STOP in SLEEP waiting for the endings it causes (R141); answered, its result
under way to the Register Port. -/
inductive CommandPhase where
  | idle
  | handed
  | planRead
  | endings
  | answered (result : CommandResult)
  deriving DecidableEq, Repr

/-- How far STARTING has come (07 R131): the fill of line 0 asked of the Line Store; the fill done or skipped; the
lane setup under way; the ramp up. -/
inductive StartupStep where
  | none | fillAsked | fillDone | lanesAsked | ramp
  deriving DecidableEq, Repr

/-- A publication report (04 R86), with the frame count of the boundary it is for (log 19). -/
structure PublicationReport where
  frame   : Word
  sets    : Nat
  changed : Bool
  deriving DecidableEq, Repr

/-- A poll report (05 R96). -/
structure PollReport where
  appended    : Bool
  ticketTaken : Bool
  deriving DecidableEq, Repr

/-- What the Mode Controller holds (07 R127), and the work it has under way: whether STOPPING's finish order has been
sent (R139), and whether SLEEPING's halt scanning order has been sent and not yet been taken (R137, log 17). -/
structure ModeController where
  part           : PartState
  plan           : Option Plan
  idleCount      : Nat
  stopRecorded   : Bool
  faultHeld      : Bool
  panel          : Panel
  rampEnd        : Nat
  pubReports     : List PublicationReport
  pollReports    : List PollReport
  command        : CommandPhase
  startup        : StartupStep
  endingsAwaited : Bool
  finishSent     : Bool
  haltSent       : Bool
  deriving DecidableEq, Repr

/-! ## Scan Unit (Chapter 4) -/

/-- Scan modes (04 R72). -/
inductive ScanMode where
  | still | frame | held
  deriving DecidableEq, Repr

/-- What a line read answers (01 R2): the 320 values, or damaged, newly or already marked. -/
inductive ReadAnswer where
  | values (vs : List Half)
  | damaged (newly : Bool)
  deriving DecidableEq, Repr

/-- The requests made for the row in progress (04 R75): none needed, for the row shows the background; a live read
outstanding; a line read of a line outstanding; the line read answered. -/
inductive RowPhase where
  | noRow
  | background
  | liveRead
  | lineRead (line : Nat)
  | answered (line : Nat) (answer : ReadAnswer)
  deriving DecidableEq, Repr

/-- What the panel port sent last (09 R164): nothing, a frame mark, or a row with its 320 values. The levels of its
pins follow from it and from the scan mode (`State.frameMarkPin`, `State.strobePin`, `State.dataPins`). -/
inductive PanelOutput where
  | nothing
  | frameMark
  | row (number : Nat) (values : List Half)
  deriving DecidableEq, Repr

/-- The orders of the Mode Controller to the Scan Unit (04 R80). -/
inductive ScanOrder where
  | begin | beginBlank | frameCadence | heldCadence | finish | haltScanning
  deriving DecidableEq, Repr

/-- What the Scan Unit holds (04 R72). `row` none is *between frames*. -/
structure ScanUnit where
  mode               : ScanMode
  row                : Option Nat
  rowPhase           : RowPhase
  frameStart         : Nat
  nextDue            : Nat
  publicationAwaited : Bool
  blank              : Bool
  finishPending      : Bool
  frameCount         : Word
  output             : PanelOutput
  deriving DecidableEq, Repr

/-! ## Commit Unit (Chapter 4) -/

/-- The condition of a ready-queue entry (04 R82). -/
inductive ReadyCondition where
  | waiting | published
  deriving DecidableEq, Repr

/-- One entry of the ready queue (04 R82). -/
structure ReadyEntry where
  header      : HeaderCopy
  lane        : Lane
  condition   : ReadyCondition
  commitFrame : Word
  rowsStaged  : Nat
  deriving DecidableEq, Repr

/-- The writing of COMMITTED outcomes (04 R89): nothing under way; the head entry's outcome write outstanding; the
head entry's end reported and not yet taken by the Lane Service. -/
inductive OutcomeWork where
  | idle | writing | reported
  deriving DecidableEq, Repr

/-- What the Commit Unit holds (04 R82, R88), and the boundary it has under way: the sets still to publish, the frame
count its notice carried, and the sums for the release notice and the publication report (R85, R86). -/
structure CommitUnit where
  ready       : List ReadyEntry
  inProgress  : Bool
  take        : List SetId
  frame       : Word
  published   : Nat
  returned    : Nat
  changed     : Bool
  outcomeWork : OutcomeWork
  markHigh    : Bool
  markEnd     : Nat
  deriving DecidableEq, Repr

/-! ## Lane Service (Chapter 5) -/

/-- Lane states, coded 0 to 3 in this order (05 R94, 10 R169). -/
inductive LaneState where
  | off | running | draining | halted
  deriving DecidableEq, Repr

/-- The state a lane takes when draining ends (05 R93). -/
inductive DrainTarget where
  | running | halted
  deriving DecidableEq, Repr

/-- Why a lane was last halted (05 R93). -/
inductive HaltReason where
  | none | linkFault | chainMisaligned | sequence | outcomeWrite | halt
  deriving DecidableEq, Repr

/-- The mark of an intake entry (05 R102). -/
inductive EntryMark where
  | ordinary | malformed | dropped | stopped
  deriving DecidableEq, Repr

/-- One entry of an intake queue (05 R101): the header copy, the commit frame value read at fetch, the mark. -/
structure IntakeEntry where
  header      : HeaderCopy
  commitFrame : Word
  mark        : EntryMark
  deriving DecidableEq, Repr

/-- The flight note of a lane when it is set (05 R103). -/
structure FlightNote where
  serial : Half
  notify : Bool
  deriving DecidableEq, Repr

/-- Lane classes (06 R118). -/
inductive LaneClass where
  | normal | urgent
  deriving DecidableEq, Repr

/-- What the Lane Service holds for one lane (05 R93). `anchor` none is the lane record. -/
structure LaneUnit where
  state             : LaneState
  drainTarget       : DrainTarget
  haltReason        : HaltReason
  anchor            : Option Word
  expected          : Option Half
  intake            : List IntakeEntry
  flight            : Option FlightNote
  abortsOutstanding : Nat
  ackOwed           : Bool
  lastTicket        : Option Byte
  enable            : Bool
  laneClass         : LaneClass
  weight            : Byte
  relax             : Byte
  deriving DecidableEq, Repr

/-- Where the boundary's work on one lane stands (05 R96 to R101): a bus read outstanding (the lane record, the next
link of the anchor set, the header of the set a link names); acting on what was read; ended for this lane. -/
inductive PollPhase where
  | recordRead
  | linkRead
  | headerRead (link : Word)
  | acting
  | ended
  deriving DecidableEq, Repr

/-- The boundary's work under way (05 R96): the lane, where it stands, what the poll report will say, and whether a
stop notice came meanwhile (R112). -/
structure BoundaryJob where
  lane        : Lane
  phase       : PollPhase
  appended    : Bool
  ticketTaken : Bool
  stopNoted   : Bool
  deriving DecidableEq, Repr

/-- One thing the Lane Service has still to do of the event in hand. The `write…` tasks are bus writes of one write
group each (10 R165); the one at the head of the agenda is outstanding. -/
inductive LaneTask where
  | writeState (lane : Lane)                              -- lane state and halt reason as they then stand (R94)
  | writeAnchorZero (lane : Lane)                         -- anchor address 0 (R95, R107)
  | writeAnchor (lane : Lane)                             -- expected serial and anchor address (R101)
  | writeHead (lane : Lane) (link : Word)                 -- the request head link into the head link (R107)
  | writeAck (lane : Lane) (ticket : Byte) (done : Bool)  -- ack ticket and ack status (R109)
  | writeReleased (lane : Lane) (serial : Half) (address : Word)   -- released serial of a reported set (R105)
  | writeEntryOutcome (lane : Lane)                       -- outcome fields of the intake head (R104)
  | writeEntryReleased (lane : Lane)                      -- released serial of the intake head (R104)
  | notifyEntry (lane : Lane)                             -- NOTIFY if the intake head asks for it (R104)
  | removeEntry (lane : Lane)                             -- the intake head leaves (R104)
  | endEntries (lane : Lane)                              -- look for an entry ready to end (R104)
  | notifyFlight (lane : Lane)                            -- NOTIFY if the flight note asks for it (R105)
  | outcomeHalt (lane : Lane) (address : Word) (serial : Half)     -- a failed outcome write reported (R105)
  | clearFlight (lane : Lane)                             -- the flight note is cleared (R105)
  | reportEligible (lane : Lane)                          -- tell the arbiter of a lane newly eligible (06 R120)
  | reportTaken                                           -- the Commit Unit's end report has been taken (04 R89)
  | startPoll (lane : Lane) (headLink : Word)             -- the poll after the request step (R98)
  | continuePoll (lane : Lane)                            -- the poll after a fetch (R98)
  | nextSetup (lane : Lane)                               -- the next lane of the setup at START (R95)
  deriving DecidableEq, Repr

/-- What the Lane Service holds (05 R93), and its work under way. `setup` is the lane whose record is being read at
START. -/
structure LaneService where
  lanes  : PerLane LaneUnit
  setup  : Option Lane
  job    : Option BoundaryJob
  agenda : List LaneTask
  deriving DecidableEq, Repr

/-! ## Grant Arbiter (Chapter 6) -/

/-- What the arbiter holds for one lane (06 R116). -/
structure ArbiterLane where
  credit   : Nat
  wait     : Nat
  promoted : Bool
  granted  : Bool
  deriving DecidableEq, Repr

/-- The grant outstanding (06 R121, R122): none; sent to the Lane Service; answered taken or refused. `spends` is
whether the lane was chosen in step 2 or 3 of the selection. -/
inductive GrantPhase where
  | none
  | sent (lane : Lane) (spends : Bool)
  | answered (lane : Lane) (spends taken : Bool)
  deriving DecidableEq, Repr

/-- What the Grant Arbiter holds (06 R116), and whether the engine's grant request waits at it (R120). -/
structure GrantArbiter where
  lanes          : PerLane ArbiterLane
  ring           : Lane
  grant          : GrantPhase
  requestWaiting : Bool
  deriving DecidableEq, Repr

/-! ## Apply Engine (Chapter 3) -/

/-- Engine states (03 R49). -/
inductive EngineState where
  | idle | applying | starved
  deriving DecidableEq, Repr

/-- An op record as read (10 R175). The kind arguments stand as the 16-bit quantities at offsets 10, 12 and 14. -/
structure OpRecord where
  kind  : Byte
  arg   : Byte
  col0  : Half
  col1  : Half
  row0  : Half
  row1  : Half
  arg10 : Half
  arg12 : Half
  arg14 : Half
  deriving DecidableEq, Repr

/-- The progress point of the slot (03 R50). -/
inductive Progress where
  | none
  | fill (row : Nat)
  | blitClaim (row : Nat)
  | blitTransfer (sourceRow : Nat)
  | readback (row : Nat)
  deriving DecidableEq, Repr

/-- The abort cause noted in the slot (03 R50, R66). -/
inductive AbortCause where
  | stopped | dropped
  deriving DecidableEq, Repr

/-- The final figures of an aborted set (03 R50, R60); `failedOp` none stands for FFh. -/
structure FinalFigures where
  outcome    : SetOutcome
  failedOp   : Option Nat
  rowsStaged : Nat
  deriving DecidableEq, Repr

/-- The slot of the engine (03 R50). `lane` is the lane whose intake queue held the set. -/
structure Slot where
  lane         : Lane
  header       : HeaderCopy
  fetchedFrame : Word
  opIndex      : Nat
  op           : Option OpRecord
  progress     : Progress
  named        : List Nat
  abortCause   : Option AbortCause
  final        : Option FinalFigures
  deriving DecidableEq, Repr

/-- The answer to a write claim (01 R13). -/
inductive WriteAnswer where
  | inPlace (line : Nat)
  | copy (line base : Nat)
  | noRoom
  deriving DecidableEq, Repr

/-- The answer to an alias claim (01 R14). -/
inductive AliasAnswer where
  | done
  | damaged (line : Nat) (newly : Bool)
  deriving DecidableEq, Repr

/-- Values to write into consecutive columns of a line, from column `c0` (01 R1, span write). -/
structure Span where
  line   : Nat
  c0     : Nat
  values : List Half
  deriving DecidableEq, Repr

/-- The engine's one outstanding request, or its answer under way back (03 R54), with the data it carries. -/
inductive EngineLink where
  | quiet
  -- bus transfers (R55)
  | trailerStart | opRead | sourceRead (y : Nat) | readbackWrite (row : Nat) (bytes : List Byte) | trailerEnd | outcomeWrite
  -- claims at the Map Unit
  | writeClaim (row : Nat) | writeAnswered (row : Nat) (answer : WriteAnswer)
  | aliasClaim | aliasAnswered (answer : AliasAnswer)
  | shiftClaim | shiftAnswered
  | viewRead (row : Nat) | viewAnswered (row line : Nat)
  | unwindClaim | unwindAnswered (removed returned : Nat)
  -- requests to the Line Store
  | copyRead (row base target : Nat) | copyReadAnswered (row base target : Nat) (answer : ReadAnswer)
  | copyWrite (target : Nat) (values : List Half) | copyWritten (target : Nat)
  | rowRead (row line : Nat) | rowReadAnswered (row line : Nat) (answer : ReadAnswer)
  | spanWrite (span : Span) (rest : List Span) | spanWritten (rest : List Span)
  -- the append to the ready queue (R58)
  | readyAppend
  deriving DecidableEq, Repr

/-- What the Apply Engine holds (03 R49, R50, R54), and how many completion reports it sends when the abort under way
ends (R68). -/
structure ApplyEngine where
  state           : EngineState
  slot            : Option Slot
  link            : EngineLink
  completionsOwed : Nat
  deriving DecidableEq, Repr

/-! ## Map Unit and Line Store (Chapter 1) -/

/-- A present staging entry (01 R6). -/
structure StagedEntry where
  line  : Nat
  owner : SetId
  deriving DecidableEq, Repr

/-- What the Map Unit holds (01 R5 to R10, R18). -/
structure MapUnit where
  live       : List Nat
  staging    : List (Option StagedEntry)
  liveCount  : List Nat
  stageCount : List Nat
  pool       : List Nat
  damaged    : List Nat
  fresh      : Bool
  deriving DecidableEq, Repr

/-- What a store line holds (01 R1, R2): the unknown contents left by the n-th power-on reset, or its 320 values and
the flaws among them by column. -/
inductive StoreLine where
  | unknown (powerOns : Nat)
  | held (values : List Half) (flaws : List (Nat × Flaw))
  deriving DecidableEq, Repr

/-- What the Line Store holds (01 R1, R4). -/
structure LineStore where
  lines       : List StoreLine
  marks       : List Bool
  markedCount : Nat
  deriving DecidableEq, Repr

/-! ## Fault Recorder (Chapter 8) -/

/-- A fault request with the part state and frame count stamped on arrival (08 R149). -/
structure StampedFault where
  request : FaultRequest
  part    : PartState
  frame   : Word
  deriving DecidableEq, Repr

/-- The bus transfer outstanding for the request in hand (08 R150, R151): none; the read of an entry's state field,
with the base taken when the search began and the entries examined before this one; the write of an entry. -/
inductive RecorderWork where
  | idle
  | searching (base : Word) (entry examined : Nat)
  | writing (base : Word) (entry : Nat)
  deriving DecidableEq, Repr

/-- What the Fault Recorder holds (08 R148). -/
structure FaultRecorder where
  queue     : List StampedFault
  position  : Nat
  tableFull : Bool
  inHand    : Option StampedFault
  work      : RecorderWork
  deriving DecidableEq, Repr

/-! ## Messages under way -/

/-- A set's end report (03 R59, 04 R89, 05 R105); the address is that of the set, which the fault entry of a failed
write names. -/
structure EndReport where
  lane    : Lane
  address : Word
  serial  : Half
  outcome : SetOutcome
  written : Bool
  deriving DecidableEq, Repr

/-- What the engine reports to the Lane Service, in the order it sends it (03 R59, R68). -/
inductive EngineReport where
  | ended (report : EndReport)
  | completion (lane : Lane)
  deriving DecidableEq, Repr

/-- The messages sent between units and not yet taken, oldest first on each way (log 9). -/
structure Mail where
  scanOrders       : List ScanOrder
  commitBoundary   : List Word
  laneBoundary     : List Word
  arbiterBoundary  : List Word
  modeBoundary     : List Word
  scanReports      : List PublicationReport
  releaseNotices   : List Nat
  pollReports      : List PollReport
  stopNotice       : Bool
  abortStop        : Bool
  abortLanes       : List Lane
  engineReports    : List EngineReport
  commitReport     : Option EndReport
  eligible         : List Lane
  setupComplete    : Bool
  markNotices      : List Nat
  damageLimit      : Nat
  recorderFailures : Nat
  faultRequests    : List (FaultSender × FaultRequest)
  overflowClears   : Nat
  flagRequests     : List Flag
  deriving DecidableEq, Repr

/-! ## The whole state -/

/-- The state of the block. `now` is the model's clock in 1/64 microseconds (log 3); `powerOns` counts power-on resets
(log 7); `mem` is system memory in canonical form (log 4). -/
structure State where
  pending  : List Instr
  now      : Nat
  powerOns : Nat
  mem      : List Host.Cell
  port     : RegisterPort
  mode     : ModeController
  scan     : ScanUnit
  commit   : CommitUnit
  lanes    : LaneService
  arbiter  : GrantArbiter
  engine   : ApplyEngine
  map      : MapUnit
  store    : LineStore
  recorder : FaultRecorder
  mail     : Mail
  deriving DecidableEq, Repr

/-- What each command answers. -/
abbrev Result := Host.Outcome State Fault Refusal

/-! ## Reset values of the units -/

/-- Every flag clear. -/
def FlagSet.clear : FlagSet := ⟨false, false, false, false, false⟩

/-- 09 R159 to R161: the Register Port after power-on reset. -/
def RegisterPort.reset : RegisterPort :=
  { exb := 0, enables := .clear, flags := .clear, lastResult := .noResult, inHand := none, waiting := none,
    resetPin := false }

/-- 07 R127. The ramp end has no value while there is no ramp: 0 (log 10). -/
def ModeController.reset : ModeController :=
  { part := .off, plan := none, idleCount := 0, stopRecorded := false, faultHeld := false, panel := .dark,
    rampEnd := 0, pubReports := [], pollReports := [], command := .idle, startup := .none,
    endingsAwaited := false, finishSent := false, haltSent := false }

/-- 04 R72. Frame start and next frame due have no value until scanning begins: 0 (log 10). -/
def ScanUnit.reset : ScanUnit :=
  { mode := .still, row := none, rowPhase := .noRow, frameStart := 0, nextDue := 0, publicationAwaited := false,
    blank := false, finishPending := false, frameCount := 0, output := .nothing }

/-- 04 R82, R88. -/
def CommitUnit.reset : CommitUnit :=
  { ready := [], inProgress := false, take := [], frame := 0, published := 0, returned := 0, changed := false,
    outcomeWork := .idle, markHigh := false, markEnd := 0 }

/-- 05 R93. -/
def LaneUnit.reset : LaneUnit :=
  { state := .off, drainTarget := .running, haltReason := .none, anchor := none, expected := none, intake := [],
    flight := none, abortsOutstanding := 0, ackOwed := false, lastTicket := none, enable := false,
    laneClass := .normal, weight := 0, relax := 0 }

/-- 05 R93, R114. -/
def LaneService.reset : LaneService :=
  { lanes := ⟨.reset, .reset, .reset, .reset⟩, setup := none, job := none, agenda := [] }

/-- 06 R116. -/
def ArbiterLane.reset : ArbiterLane := { credit := 0, wait := 0, promoted := false, granted := false }

/-- 06 R116. -/
def GrantArbiter.reset : GrantArbiter :=
  { lanes := ⟨.reset, .reset, .reset, .reset⟩, ring := 0, grant := .none, requestWaiting := false }

/-- 03 R49, R71. -/
def ApplyEngine.reset : ApplyEngine := { state := .idle, slot := none, link := .quiet, completionsOwed := 0 }

/-- 01 R20: every row names line 0, the pool holds lines 1 to 383 ascending, the map-fresh flag is set. -/
def MapUnit.reset : MapUnit :=
  { live := List.replicate 240 0, staging := List.replicate 240 none, liveCount := 240 :: List.replicate 383 0,
    stageCount := List.replicate 384 0, pool := List.range' 1 383, damaged := [], fresh := true }

/-- 01 R20: contents unknown, no line marked, after the n-th power-on reset. -/
def LineStore.reset (powerOns : Nat) : LineStore :=
  { lines := List.replicate 384 (.unknown powerOns), marks := List.replicate 384 false, markedCount := 0 }

/-- 08 R148. -/
def FaultRecorder.reset : FaultRecorder :=
  { queue := [], position := 15, tableFull := false, inHand := none, work := .idle }

/-- No message is under way after a reset (03 R71, 04 R92, 05 R114, 08 R155). -/
def Mail.empty : Mail :=
  { scanOrders := [], commitBoundary := [], laneBoundary := [], arbiterBoundary := [], modeBoundary := [],
    scanReports := [], releaseNotices := [], pollReports := [], stopNotice := false, abortStop := false,
    abortLanes := [], engineReports := [], commitReport := none, eligible := [], setupComplete := false,
    markNotices := [], damageLimit := 0, recorderFailures := 0, faultRequests := [], overflowClears := 0,
    flagRequests := [] }

/-- The machine right after power-on reset (07 R146): no command waits, memory lists nothing, every unit at its
reset values. -/
def State.reset : State :=
  { pending := [], now := 0, powerOns := 0, mem := [], port := .reset, mode := .reset, scan := .reset,
    commit := .reset, lanes := .reset, arbiter := .reset, engine := .reset, map := .reset, store := .reset 0,
    recorder := .reset, mail := .empty }

end Sys2Proof.Machine
end

