-- ==== Sys2Proof/Machine/Operands.lean ====
section
/-! DEFINITION. Byte order and the record formats of Chapter 10: how the bytes of the plan, a lane record, a set header,
an op record and a trailer are read, how the part's write groups are laid out, and the checks of a plan (07 R130) and
of an op (02 R32 to R34, R37, R42, R44, R46). -/

namespace Sys2Proof.Machine

/-! ## Byte order (10 R165) -/

/-- The byte at an offset of a record. -/
def byteAt (bs : List Byte) (i : Nat) : Byte := bs.getD i 0

/-- A 16-bit field: least significant byte at the lower address (10 R165). -/
def halfAt (bs : List Byte) (i : Nat) : Half := byteAt bs (i + 1) ++ byteAt bs i

/-- A 32-bit field (10 R165). -/
def wordAt (bs : List Byte) (i : Nat) : Word := halfAt bs (i + 2) ++ halfAt bs i

/-- The two bytes of a 16-bit field, lowest address first (10 R165). -/
def halfBytes (h : Half) : List Byte := [h.extractLsb' 0 8, h.extractLsb' 8 8]

/-- The four bytes of a 32-bit field, lowest address first (10 R165). -/
def wordBytes (w : Word) : List Byte :=
  [w.extractLsb' 0 8, w.extractLsb' 8 8, w.extractLsb' 16 8, w.extractLsb' 24 8]

/-- A flag byte counts as set when it is not 0 (10 R165). -/
def flagByte (b : Byte) : Bool := b != 0

/-- Colour values of a row in memory, two bytes each (02 R40). -/
def coloursOf (bs : List Byte) (count : Nat) : List Half :=
  (List.range count).map fun i => halfAt bs (2 * i)

/-- The bytes of a row of colour values (02 R40, R47). -/
def colourBytes (vs : List Half) : List Byte := vs.flatMap halfBytes

/-! ## Codes -/

/-- 09 R157, 10 R171: the code of a part state. -/
def PartState.code : PartState → Nat
  | .off => 0 | .starting => 1 | .active => 2 | .hold => 3 | .sleeping => 4 | .sleep => 5 | .waking => 6
  | .stopping => 7 | .faulted => 8

/-- 09 R157: the code of a last result. -/
def CommandResult.code : CommandResult → Nat
  | .noResult => 0 | .ok => 1 | .refusedState => 2 | .refusedBase => 3 | .planInvalid => 4 | .refusedBusy => 5

/-- 02 R27: the code of an outcome. -/
def SetOutcome.code : SetOutcome → Nat
  | .committed => 1 | .malformed => 2 | .badOp => 3 | .zoneViolation => 4 | .transferFault => 5 | .storeError => 6
  | .torn => 7 | .noRoom => 8 | .dropped => 9 | .stopped => 10

/-- 08 R147: the code of a fault. -/
def FaultCode.code : FaultCode → Nat
  | .linkFault => 1 | .chainMisaligned => 2 | .sequence => 3 | .outcomeWrite => 4 | .lineDamaged => 5
  | .damageLimit => 6

/-- 10 R169: the code of a lane state. -/
def LaneState.code : LaneState → Nat
  | .off => 0 | .running => 1 | .draining => 2 | .halted => 3

/-- 10 R169: the code of a halt reason. -/
def HaltReason.code : HaltReason → Nat
  | .none => 0 | .linkFault => 1 | .chainMisaligned => 2 | .sequence => 3 | .outcomeWrite => 4 | .halt => 7

/-- 09 R157: the command code of bits 0 to 3 of CMD that goes to the command slot. -/
def partCommandOf (code : BitVec 4) : Option PartCommand :=
  if code = 1#4 then some .start else if code = 2#4 then some .stop
  else if code = 3#4 then some .sleep else if code = 4#4 then some .wake else none

/-- The halt reason of a fault halt cause (10 R169: the same numbers). -/
def FaultCode.haltReason : FaultCode → HaltReason
  | .linkFault => .linkFault
  | .chainMisaligned => .chainMisaligned
  | .sequence => .sequence
  | .outcomeWrite => .outcomeWrite
  | .lineDamaged | .damageLimit => .none

/-! ## The panel plan (10 R167, 07 R130) -/

/-- 10 R167: the mark mode byte. -/
def markModeOf (b : Byte) : Option MarkMode :=
  if b = 0 then some .off else if b = 1 then some .commit else if b = 2 then some .every else none

/-- An owner lane byte, 0 to 3 (07 R130). -/
def laneOf (b : Byte) : Option Lane :=
  if h : b.toNat < 4 then some ⟨b.toNat, h⟩ else none

/-- Zone entry `i` of the plan's 64 bytes (10 R167); none if its owner lane is not 0 to 3. -/
def zoneAt (bs : List Byte) (i : Nat) : Option Zone :=
  match laneOf (byteAt bs (32 + 8 * i + 4)) with
  | none => none
  | some owner =>
    some { firstRow := (halfAt bs (32 + 8 * i)).toNat, rowCount := (halfAt bs (32 + 8 * i + 2)).toNat,
           owner := owner, shown := flagByte (byteAt bs (32 + 8 * i + 5)) }

/-- `n` zone entries from entry `i` on. -/
def zonesFrom (bs : List Byte) : (n i : Nat) → Option (List Zone)
  | 0, _ => some []
  | n + 1, i =>
    match zoneAt bs i, zonesFrom bs n (i + 1) with
    | some z, some zs => some (z :: zs)
    | _, _ => none

/-- 07 R130: each zone's row count is 1 to 240, each zone begins where the one before ends, the first at `next`, and
together they end at row 240. -/
def zonesCover (next : Nat) : List Zone → Bool
  | [] => next == Config.rows
  | z :: zs => z.firstRow == next && 1 ≤ z.rowCount && z.rowCount ≤ Config.rows && zonesCover (next + z.rowCount) zs

/-- The plan that 64 bytes hold, if START accepts it (07 R130, 10 R167). -/
def planOf (bs : List Byte) : Option Plan :=
  match markModeOf (byteAt bs 6), zonesFrom bs (byteAt bs 7).toNat 0 with
  | some mark, some zones =>
    let period := (halfAt bs 2).toNat
    let divider := (byteAt bs 5).toNat
    if halfAt bs 0 = 1 ∧ 1 ≤ zones.length ∧ zones.length ≤ 4 ∧ zonesCover 0 zones ∧ 100 ≤ period ∧ period ≤ 400 ∧
        2 ≤ divider ∧ divider ≤ 16 then
      some { format := halfAt bs 0, period := period, holdThreshold := (byteAt bs 4).toNat, holdDivider := divider,
             markMode := mark, background := halfAt bs 8, faultColour := halfAt bs 10, zones := zones }
    else none
  | _, _ => none

/-- The zone of a row (07 R128). -/
def Plan.zoneOf (p : Plan) (row : Nat) : Option Zone :=
  p.zones.find? fun z => z.firstRow ≤ row && row < z.firstRow + z.rowCount

/-- Whether a row lies in a zone owned by the lane (02 R34). -/
def Plan.owns (p : Plan) (lane : Lane) (row : Nat) : Bool :=
  match p.zoneOf row with
  | some z => z.owner == lane
  | none => false

/-- Whether a row lies in a zone whose shown flag is clear (04 R76). -/
def Plan.hides (p : Plan) (row : Nat) : Bool :=
  match p.zoneOf row with
  | some z => !z.shown
  | none => false

/-! ## Lane records and set headers (10 R169, R173) -/

/-- The host's fields of a lane record, and the ack ticket that START reads (10 R169, R170). -/
structure LaneRecord where
  headLink    : Word
  requestHead : Word
  enable      : Bool
  laneClass   : LaneClass
  weight      : Byte
  relax       : Byte
  code        : Byte
  ticket      : Byte
  ackTicket   : Byte
  deriving DecidableEq, Repr

/-- 10 R169. A class of 1 is URGENT, any other NORMAL (06 R118). -/
def laneRecordOf (bs : List Byte) : LaneRecord :=
  { headLink := wordAt bs 0, requestHead := wordAt bs 4, enable := flagByte (byteAt bs 8),
    laneClass := if byteAt bs 9 = 1 then .urgent else .normal, weight := byteAt bs 10, relax := byteAt bs 11,
    code := byteAt bs 12, ticket := byteAt bs 13, ackTicket := byteAt bs 16 }

/-- The header copy taken from the 32 bytes of a header (02 R22, 10 R173). -/
def headerOf (address : Word) (bs : List Byte) : HeaderCopy :=
  { address := address, lane := byteAt bs 6, serial := halfAt bs 4, opCount := byteAt bs 7,
    notify := flagByte (byteAt bs 8) }

/-- The commit frame value of a header (10 R174). -/
def headerFrame (bs : List Byte) : Word := wordAt bs 16

/-- 05 R101: a set is malformed if its lane field differs from the lane polled or its op count exceeds 64. -/
def HeaderCopy.malformed (h : HeaderCopy) (lane : Lane) : Bool :=
  h.lane.toNat != lane.val || 64 < h.opCount.toNat

/-- 02 R21: op record `i` lies at the set address plus 32 + 16 i, modulo 2^32. -/
def HeaderCopy.opAddress (h : HeaderCopy) (i : Nat) : Word := h.address + BitVec.ofNat 32 (32 + 16 * i)

/-- 02 R21: the trailer lies after the op list. -/
def HeaderCopy.trailerAddress (h : HeaderCopy) : Word := h.opAddress h.opCount.toNat

/-! ## Op records (10 R175, R176) -/

/-- The five kinds of op (02 R30). -/
inductive OpKind where
  | fill | blit | shift | aliasRows | readback
  deriving DecidableEq, Repr

/-- 10 R175. -/
def opRecordOf (bs : List Byte) : OpRecord :=
  { kind := byteAt bs 0, arg := byteAt bs 1, col0 := halfAt bs 2, col1 := halfAt bs 4, row0 := halfAt bs 6,
    row1 := halfAt bs 8, arg10 := halfAt bs 10, arg12 := halfAt bs 12, arg14 := halfAt bs 14 }

namespace OpRecord

/-- 02 R30: the kind; every value outside 1 to 5 is unknown. -/
def opKind (op : OpRecord) : Option OpKind :=
  if op.kind = 1 then some .fill else if op.kind = 2 then some .blit else if op.kind = 3 then some .shift
  else if op.kind = 4 then some .aliasRows else if op.kind = 5 then some .readback else none

/-- First and last row and column of the window (02 R30). -/
def top (op : OpRecord) : Nat := op.row0.toNat
def bottom (op : OpRecord) : Nat := op.row1.toNat
def left (op : OpRecord) : Nat := op.col0.toNat
def right (op : OpRecord) : Nat := op.col1.toNat

/-- 02 R33: W columns and H rows. -/
def width (op : OpRecord) : Nat := op.right - op.left + 1
def height (op : OpRecord) : Nat := op.bottom - op.top + 1

/-- FILL's colour (10 R175). -/
def colour (op : OpRecord) : Half := op.arg10

/-- BLIT's source address and READBACK's destination address, offsets 10 to 13 (10 R175). -/
def address (op : OpRecord) : Word := op.arg12 ++ op.arg10

/-- The stride at offset 14 (10 R175). -/
def stride (op : OpRecord) : Nat := op.arg14.toNat

/-- SHIFT's distance, two's complement (10 R176). -/
def distance (op : OpRecord) : Int := op.arg10.toInt

/-- ALIAS's source row (10 R175). -/
def sourceRow (op : OpRecord) : Nat := op.arg10.toNat

/-- 10 R176: the three choices of the BLIT orientation. -/
def mirrorColumns (op : OpRecord) : Bool := op.arg.getLsbD 0
def mirrorRows (op : OpRecord) : Bool := op.arg.getLsbD 1
def exchange (op : OpRecord) : Bool := op.arg.getLsbD 2

/-- 02 R37: the width and height of the source image. -/
def sourceWidth (op : OpRecord) : Nat := if op.exchange then op.height else op.width
def sourceHeight (op : OpRecord) : Nat := if op.exchange then op.width else op.height

/-- Where source row `y` of a BLIT lies (02 R40). -/
def sourceRowAddress (op : OpRecord) (y : Nat) : Word := op.address + BitVec.ofNat 32 (y * op.stride)

/-- Where a READBACK writes window row `row` (02 R47). -/
def readbackAddress (op : OpRecord) (row : Nat) : Word := op.address + BitVec.ofNat 32 ((row - op.top) * op.stride)

/-- The bytes READBACK writes for a row of a line with these values: columns col0 to col1 (02 R47). -/
def readbackBytes (op : OpRecord) (vs : List Half) : List Byte := colourBytes ((vs.drop op.left).take op.width)

/-- 02 R33: the window check on rows, for every kind. -/
def rowsOk (op : OpRecord) : Bool := op.top ≤ op.bottom && op.bottom < Config.rows

/-- 02 R33: the window check on columns, for FILL, BLIT and READBACK. -/
def columnsOk (op : OpRecord) : Bool := op.left ≤ op.right && op.right < Config.columns

/-- 02 R37, R46: a stride must be even and at least twice the width of a row in memory. -/
def strideOk (op : OpRecord) (rowWidth : Nat) : Bool := op.stride % 2 == 0 && 2 * rowWidth ≤ op.stride

/-- 02 R33: the window check of a kind. -/
def windowOk (op : OpRecord) : OpKind → Bool
  | .fill | .blit | .readback => op.rowsOk && op.columnsOk
  | .shift | .aliasRows => op.rowsOk

/-- 02 R37, R42, R44, R46: the check particular to a kind. -/
def kindOk (op : OpRecord) : OpKind → Bool
  | .fill => true
  | .blit => op.arg.toNat ≤ 7 && op.strideOk op.sourceWidth
  | .shift => op.distance != 0 && op.distance.natAbs < op.height
  | .aliasRows => op.sourceRow < Config.rows
  | .readback => op.strideOk op.width

/-- The rows row0 to row1, ascending. -/
def windowRows (op : OpRecord) : List Nat := List.range' op.top op.height

/-- 02 R34: every row of the window lies in a zone of the set's lane. No zone check is made on READBACK. -/
def zonesOk (op : OpRecord) (plan : Option Plan) (lane : Lane) : OpKind → Bool
  | .readback => true
  | .fill | .blit | .shift | .aliasRows =>
    match plan with
    | some p => op.windowRows.all (p.owns lane)
    | none => false

/-- 02 R32: the checks in their order; the first that fails decides the outcome. Answers the kind, or the outcome. -/
def check (op : OpRecord) (plan : Option Plan) (lane : Lane) : Except SetOutcome OpKind :=
  match op.opKind with
  | none => .error .badOp
  | some k =>
    if !op.windowOk k then .error .badOp
    else if !op.kindOk k then .error .badOp
    else if !op.zonesOk plan lane k then .error .zoneViolation
    else .ok k

end OpRecord

/-! ## What the part writes -/

/-- The outcome write group, bytes 16 to 23 of a set header (02 R25, 10 R173). -/
def outcomeBytes (commitFrame : Word) (outcome : SetOutcome) (failedOp : Option Nat) (rowsStaged : Nat) : List Byte :=
  wordBytes commitFrame ++ [BitVec.ofNat 8 outcome.code, BitVec.ofNat 8 (failedOp.getD 255)] ++
    halfBytes (BitVec.ofNat 16 rowsStaged)

/-- A 16-bit field of a fault entry, FFFFh when the request does not use it (08 R147). -/
def entryNumber (n : Option Nat) : Half := BitVec.ofNat 16 (n.getD 0xFFFF)

/-- The 16 bytes of a fault entry (10 R171, R172, 08 R147). -/
def faultEntryBytes (f : StampedFault) : List Byte :=
  [BitVec.ofNat 8 (f.request.code.code + 16 * f.part.code),
   match f.request.lane with
   | some l => BitVec.ofNat 8 l.val
   | none => 0xFF] ++
  halfBytes (f.request.serial.getD 0) ++ halfBytes (entryNumber f.request.row) ++
  halfBytes (entryNumber f.request.line) ++ wordBytes f.frame ++ wordBytes (f.request.address.getD 0)

end Sys2Proof.Machine
end

