-- ==== Sys2Proof/Machine/Flags.lean ====
section
/-! DEFINITION. The pending flags, their enables and the interrupt line (08 R155, R156), and what register reads
return (09 R157, R158, R161, R162). -/

namespace Sys2Proof.Machine

namespace FlagSet

/-- Whether a flag is set. -/
def get (f : FlagSet) : Flag → Bool
  | .notify => f.notify
  | .fault => f.fault
  | .lane => f.lane
  | .done => f.done
  | .overflow => f.overflow

/-- Set one flag (08 R155: a flag already set stays set). -/
def set (f : FlagSet) : Flag → FlagSet
  | .notify => { f with notify := true }
  | .fault => { f with fault := true }
  | .lane => { f with lane := true }
  | .done => { f with done := true }
  | .overflow => { f with overflow := true }

/-- Five bits in the order of positions 16 to 20 of CMD and STS (09 R157). -/
def ofBits (b : BitVec 5) : FlagSet :=
  ⟨b.getLsbD 0, b.getLsbD 1, b.getLsbD 2, b.getLsbD 3, b.getLsbD 4⟩

/-- The five flags as a number, NOTIFY the least significant. -/
def toNat (f : FlagSet) : Nat :=
  f.notify.toNat + 2 * f.fault.toNat + 4 * f.lane.toNat + 8 * f.done.toNat + 16 * f.overflow.toNat

/-- Clear each flag whose bit is one (09 R161). -/
def clearBits (f : FlagSet) (b : BitVec 5) : FlagSet :=
  ⟨f.notify && !b.getLsbD 0, f.fault && !b.getLsbD 1, f.lane && !b.getLsbD 2, f.done && !b.getLsbD 3,
   f.overflow && !b.getLsbD 4⟩

end FlagSet

/-- Bits 16 to 20 of a register word (09 R157). -/
def flagBits (value : Word) : BitVec 5 := value.extractLsb' 16 5

/-- 08 R156: the interrupt line is asserted while some pending flag is set whose enable is set; 09 R163: it is low
while the reset pin is held active. -/
def RegisterPort.interruptLine (p : RegisterPort) : Bool :=
  !p.resetPin &&
    (p.flags.notify && p.enables.notify || p.flags.fault && p.enables.fault || p.flags.lane && p.enables.lane ||
      p.flags.done && p.enables.done || p.flags.overflow && p.enables.overflow)

/-- 09 R160: command busy is set while a command is in hand. -/
def RegisterPort.busy (p : RegisterPort) : Bool := p.inHand.isSome

/-- 09 R157, R158: a 32-bit read at an offset of the register window; above 0Ch it reads 0, and so does every read
while the reset pin is held active. The spec does not say what a 32-bit read gives at an offset below 0Ch that is no
multiple of 4: it reads 0, DESIGN CHOICE (log 37). -/
def State.readRegister (s : State) (offset : Nat) : Word :=
  if s.port.resetPin then 0
  else if offset = 0x00 then s.port.exb
  else if offset = 0x04 then BitVec.ofNat 32 (s.port.enables.toNat * 2 ^ 16)
  else if offset = 0x08 then
    BitVec.ofNat 32 (s.mode.part.code + s.port.lastResult.code * 2 ^ 4 + s.port.busy.toNat * 2 ^ 15 +
      s.port.flags.toNat * 2 ^ 16)
  else if offset = 0x0C then s.scan.frameCount
  else 0

/-- 09 R158: a read of fewer than 32 bits returns the addressed bytes of the register as a 32-bit read gives them. At
0Dh to 0Fh the rule's *addressed bytes* and its *above 0Ch reads 0* differ: bytes 1 to 3 of FRC, DESIGN CHOICE (log
37). Which byte of a register stands at the lower offset the rule does not say: the least significant one, as in a
memory record, PRESUMED (log 42). -/
def State.readRegisterByte (s : State) (offset : Nat) : Byte :=
  (s.readRegister (4 * (offset / 4))).extractLsb' (8 * (offset % 4)) 8

/-- 07 R144, 09 R164: pin PEN is high while the panel is RISING or LIT; it is inactive while the reset pin is held. -/
def State.panelEnable (s : State) : Bool :=
  !s.port.resetPin && (s.mode.panel == .rising || s.mode.panel == .lit)

/-- 09 R164: pin FRM is high from a frame mark to the first row of the frame, and low in STILL (log 32). -/
def State.frameMarkPin (s : State) : Bool := s.scan.mode != .still && s.scan.output == .frameMark

/-- 09 R164: pin PCK strobes the values of the row sent last, and stays low in STILL (log 32). -/
def State.strobePin (s : State) : Bool :=
  s.scan.mode != .still &&
    match s.scan.output with
    | .row _ _ => true
    | .nothing | .frameMark => false

/-- 09 R164: what the data pins carry, one value after the other: the number of the row sent last and its 320 colour
values. In STILL, and with no row to send, they hold 0 (log 32). -/
def State.dataPins (s : State) : List Half :=
  match s.scan.mode, s.scan.output with
  | .frame, .row n vs | .held, .row n vs => BitVec.ofNat 16 n :: vs
  | .still, _ | _, .nothing | _, .frameMark => [0]

/-- 09 R163: pin CMK is high during a pulse of the Commit Unit and low while the reset pin is held. -/
def State.commitMark (s : State) : Bool := !s.port.resetPin && s.commit.markHigh

end Sys2Proof.Machine
end

