-- ==== Sys2Proof/Machine/Ops.lean ====
section
/-! DEFINITION. The named operations the meanings are made of: memory and the system bus, one lane's share of the lane
state, the requests units send one another, and the tests several units make. -/

namespace Sys2Proof.Machine

/-! ## System memory: a list of (address, byte) pairs in one canonical form (log 4) -/

/-- System memory. -/
abbrev Memory := List Host.Cell

namespace Memory

/-- What a byte that nothing has written reads as: 0, DESIGN CHOICE (log 4). -/
def unlisted : Byte := 0

/-- The byte at an address. -/
def read : Memory → Nat → Byte
  | [], _ => unlisted
  | (k, v) :: rest, a => if k = a then v else read rest a

/-- Write one byte, keeping the canonical form. -/
def write : Memory → Nat → Byte → Memory
  | [], a, b => if b = unlisted then [] else [(a, b)]
  | (k, v) :: rest, a, b =>
    if a < k then (if b = unlisted then (k, v) :: rest else (a, b) :: (k, v) :: rest)
    else if a = k then (if b = unlisted then rest else (a, b) :: rest)
    else (k, v) :: write rest a b

/-- Every listed address is above `low`, they rise strictly, and no entry equals what an unlisted byte reads as. -/
def wfAbove : Option Nat → Memory → Bool
  | _, [] => true
  | low, (k, v) :: rest =>
    (match low with
     | none => true
     | some l => l < k) && v != unlisted && wfAbove (some k) rest

/-- The canonical form: addresses strictly rising, no entry equal to what an unlisted address reads as. -/
def wf (m : Memory) : Bool := wfAbove none m

/-- `n` bytes from an address, modulo 2^32 (02 R21). -/
def readBytes (m : Memory) (a : Word) (n : Nat) : List Byte :=
  (List.range n).map fun i => read m (a + BitVec.ofNat 32 i).toNat

/-- Bytes written from an address on, modulo 2^32; only those whose offset `keep` holds for. -/
def writeSome (keep : Nat → Bool) : (offset : Nat) → Memory → Word → List Byte → Memory
  | _, m, _, [] => m
  | i, m, a, b :: bs =>
    writeSome keep (i + 1) (if keep i then write m (a + BitVec.ofNat 32 i).toNat b else m) a bs

/-- All of the bytes written. -/
def writeBytes (m : Memory) (a : Word) (bs : List Byte) : Memory := writeSome (fun _ => true) 0 m a bs

/-- What the host wrote before a transfer, oldest first. -/
def hostWrites (m : Memory) (host : List (Word × Byte)) : Memory :=
  host.foldl (fun m c => write m c.1.toNat c.2) m

end Memory

/-! ## The system bus (09 R164) -/

/-- Memory after a bus write ended: the host's earlier writes, then the bytes of the write, all of them or, on a bus
error, those the bus left there (log 5). -/
def busWriteMemory (bus : BusEvent) (m : Memory) (a : Word) (bs : List Byte) : Memory :=
  match bus.error with
  | none => Memory.writeBytes (Memory.hostWrites m bus.host) a bs
  | some landed => Memory.writeSome (fun i => landed.contains i) 0 (Memory.hostWrites m bus.host) a bs

/-- The state after a bus write ended. -/
def State.busWrite (s : State) (bus : BusEvent) (a : Word) (bs : List Byte) : State :=
  { s with mem := busWriteMemory bus s.mem a bs }

/-- The state after a bus read ended: the read leaves memory as it is (02 R41). -/
def State.busRead (s : State) (bus : BusEvent) : State :=
  { s with mem := Memory.hostWrites s.mem bus.host }

/-- The data of a bus read: none on a bus error. -/
def State.busData (s : State) (bus : BusEvent) (a : Word) (n : Nat) : Option (List Byte) :=
  match bus.error with
  | none => some (Memory.readBytes (Memory.hostWrites s.mem bus.host) a n)
  | some _ => none

/-- Whether the transfer ended without a bus error. -/
def busClean (bus : BusEvent) : Bool := bus.error.isNone

/-! ## One lane's share -/

namespace PerLane

/-- One lane's value. -/
def get {α : Type} (p : PerLane α) : Lane → α
  | 0 => p.lane0
  | 1 => p.lane1
  | 2 => p.lane2
  | 3 => p.lane3

/-- Replace one lane's value. -/
def set {α : Type} (p : PerLane α) : Lane → α → PerLane α
  | 0, v => { p with lane0 := v }
  | 1, v => { p with lane1 := v }
  | 2, v => { p with lane2 := v }
  | 3, v => { p with lane3 := v }

/-- Each lane's value given by a function of the lane. -/
def ofFn {α : Type} (f : Lane → α) : PerLane α := ⟨f 0, f 1, f 2, f 3⟩

end PerLane

/-- The lanes in order (05 R95, R96). -/
def allLanes : List Lane := [0, 1, 2, 3]

/-- The lane after this one, if there is one. -/
def nextLane : Lane → Option Lane
  | 0 => some 1
  | 1 => some 2
  | 2 => some 3
  | 3 => none

/-- What the Lane Service holds for a lane. -/
def State.lane (s : State) (l : Lane) : LaneUnit := s.lanes.lanes.get l

/-- Replace what the Lane Service holds for a lane. -/
def State.setLane (s : State) (l : Lane) (u : LaneUnit) : State :=
  { s with lanes := { s.lanes with lanes := s.lanes.lanes.set l u } }

/-! ## Messages between units -/

/-- A unit asks the Register Port to set a pending flag (08 R155). -/
def State.askFlag (s : State) (f : Flag) : State :=
  { s with mail := { s.mail with flagRequests := s.mail.flagRequests ++ [f] } }

/-- A unit sends the Fault Recorder a fault request (08 R147). -/
def State.askFault (s : State) (sender : FaultSender) (r : FaultRequest) : State :=
  { s with mail := { s.mail with faultRequests := s.mail.faultRequests ++ [(sender, r)] } }

/-- The Mode Controller sends the Scan Unit an order (04 R80). -/
def State.order (s : State) (o : ScanOrder) : State :=
  { s with mail := { s.mail with scanOrders := s.mail.scanOrders ++ [o] } }

/-- The Mode Controller with some of its values replaced. -/
def State.setMode (s : State) (m : ModeController) : State := { s with mode := m }

/-- 07 R144: a ramp up begins. -/
def State.rampUp (s : State) : State :=
  s.setMode { s.mode with panel := .rising, rampEnd := s.now + Config.rampUpTime }

/-- 07 R144: a ramp down begins. -/
def State.rampDown (s : State) : State :=
  s.setMode { s.mode with panel := .falling, rampEnd := s.now + Config.rampDownTime }

/-- The first message from a sender, and the rest in their order. -/
def takeFrom (sender : FaultSender) :
    List (FaultSender × FaultRequest) → Option (FaultRequest × List (FaultSender × FaultRequest))
  | [] => none
  | (from', r) :: rest =>
    if from' = sender then some (r, rest)
    else match takeFrom sender rest with
      | none => none
      | some (r', rest') => some (r', (from', r) :: rest')

/-! ## Tests several units make -/

/-- The part states in which grants are given and lanes are served (03 R51, 05 R96). -/
def PartState.grants (p : PartState) : Bool := p == .active || p == .hold

/-- 05 R103: a lane is eligible when it is RUNNING, its intake head is an ordinary entry and its flight note is clear. -/
def LaneUnit.eligible (u : LaneUnit) : Bool :=
  u.state == .running && u.flight.isNone &&
    match u.intake with
    | e :: _ => e.mark == .ordinary
    | [] => false

/-- Every lane's intake queue is empty (07 R135, R140, R141). -/
def State.intakesEmpty (s : State) : Bool := allLanes.all fun l => (s.lane l).intake.isEmpty

/-- Every lane's flight note is clear (05 R95, R103). -/
def State.flightNotesClear (s : State) : Bool := allLanes.all fun l => (s.lane l).flight.isNone

/-- Where a lane record lies: the exchange area base plus 64 + 32 × lane (05 R95, 09 R159). An exchange area that runs
past the top of the address space goes on at address 0, which the spec says of sets alone; DESIGN CHOICE (log 46). -/
def State.laneRecord (s : State) (l : Lane) : Word := s.port.exb + BitVec.ofNat 32 (64 + 32 * l.val)

/-- Where a fault entry lies: the base plus 192 + 16 × entry (08 R150, 10 R166), modulo 2^32 where the exchange area runs
past the top of the address space; DESIGN CHOICE (log 46). -/
def faultEntryAddress (base : Word) (entry : Nat) : Word := base + BitVec.ofNat 32 (192 + 16 * entry)

/-- The set the engine holds, as an owner of staged entries (01 R6). -/
def Slot.setId (sl : Slot) : SetId := ⟨sl.lane, sl.header.serial⟩

/-- The period T of the plan copy on the model's clock (04 R73). -/
def State.period (s : State) : Nat :=
  match s.mode.plan with
  | some p => p.period * Config.unitsPer100us
  | none => 0

/-- One row time, T/256 (04 R73). -/
def State.rowTime (s : State) : Nat := s.period / 256

/-- D × T (04 R81). -/
def State.heldPeriod (s : State) : Nat :=
  match s.mode.plan with
  | some p => p.holdDivider * s.period
  | none => 0

/-- The background colour of the plan copy (07 R128). -/
def State.background (s : State) : Half :=
  match s.mode.plan with
  | some p => p.background
  | none => 0

/-- The fault colour of the plan copy (07 R128). -/
def State.faultColour (s : State) : Half :=
  match s.mode.plan with
  | some p => p.faultColour
  | none => 0

/-- A row of one colour in all 320 columns. -/
def solidRow (c : Half) : List Half := List.replicate Config.columns c

/-! ## The bus write a unit has outstanding (09 R164) -/

/-- The bytes and address of the write a Lane Service task stands for (10 R165, R169, R173). -/
def LaneTask.busWrite (s : State) : LaneTask → Option (Word × List Byte)
  | .writeState l =>
    some (s.laneRecord l + 18#32, [BitVec.ofNat 8 (s.lane l).state.code, BitVec.ofNat 8 (s.lane l).haltReason.code])
  | .writeAnchorZero l => some (s.laneRecord l + 24#32, wordBytes 0)
  | .writeAnchor l =>
    some (s.laneRecord l + 22#32, halfBytes ((s.lane l).expected.getD 0) ++ wordBytes ((s.lane l).anchor.getD 0))
  | .writeHead l link => some (s.laneRecord l, wordBytes link)
  | .writeAck l ticket done => some (s.laneRecord l + 16#32, [ticket, if done then 1 else 2])
  | .writeReleased l serial _ => some (s.laneRecord l + 20#32, halfBytes serial)
  | .writeEntryOutcome l =>
    match (s.lane l).intake with
    | e :: _ =>
      some (e.header.address + 16#32,
        outcomeBytes e.commitFrame
          (match e.mark with
           | .malformed => .malformed
           | .stopped => .stopped
           | .dropped | .ordinary => .dropped) none 0)
    | [] => some (0, [])
  | .writeEntryReleased l =>
    match (s.lane l).intake with
    | e :: _ => some (s.laneRecord l + 20#32, halfBytes e.header.serial)
    | [] => some (0, [])
  | .notifyEntry _ | .removeEntry _ | .endEntries _ | .notifyFlight _ | .outcomeHalt _ _ _ | .clearFlight _
  | .reportEligible _ | .reportTaken | .startPoll _ _ | .continuePoll _ | .nextSetup _ => none

/-- The bus write a unit has outstanding, if it has one. -/
def State.outstandingWrite (s : State) : BusUnit → Option (Word × List Byte)
  | .laneService =>
    match s.lanes.agenda with
    | t :: _ => t.busWrite s
    | [] => none
  | .engine =>
    match s.engine.slot, s.engine.link with
    | some sl, .outcomeWrite =>
      match sl.final with
      | some f => some (sl.header.address + 16#32, outcomeBytes sl.fetchedFrame f.outcome f.failedOp f.rowsStaged)
      | none => none
    | some sl, .readbackWrite row bytes =>
      match sl.op with
      | some op => some (op.readbackAddress row, bytes)
      | none => none
    | _, _ => none
  | .commitUnit =>
    match s.commit.outcomeWork, s.commit.ready with
    | .writing, e :: _ => some (e.header.address + 16#32, outcomeBytes e.commitFrame .committed none e.rowsStaged)
    | _, _ => none
  | .recorder =>
    match s.recorder.work, s.recorder.inHand with
    | .writing base entry, some f => some (faultEntryAddress base entry, faultEntryBytes f)
    | _, _ => none

/-- 09 R164: a transaction begun when a reset arrives is completed by the port, one waiting is not begun (log 6). -/
def State.completeBegun (s : State) : Begun → State
  | none => s
  | some (u, bus) =>
    match s.outstandingWrite u with
    | none => s
    | some (a, bs) => s.busWrite bus a bs

end Sys2Proof.Machine
end

