-- ==== Sys2Proof/Machine/LineStore.lean ====
section
/-! DEFINITION. The Line Store (01 R1 to R4): line reads with their damage answers, whole-line writes and span writes. -/

namespace Sys2Proof.Machine

namespace StoreLine

/-- The 320 values a line holds; after power-on reset they are unknown (01 R1, log 7). -/
def valuesOf (line : Nat) : StoreLine → List Half
  | .unknown n => (List.range Config.columns).map (Config.powerOnValue n line)
  | .held vs _ => vs

/-- The flaws among the values, by column (01 R2, log 7, log 8). -/
def flawsOf (line : Nat) : StoreLine → List (Nat × Flaw)
  | .unknown n => (List.range Config.columns).filterMap fun c => (Config.powerOnFlaw n line c).map fun f => (c, f)
  | .held _ fs => fs

/-- The line with the flaws that have come up in it since (log 8). -/
def addFlaws (line : Nat) (sl : StoreLine) (flaws : List (Nat × Flaw)) : StoreLine :=
  if flaws.isEmpty then sl else .held (sl.valuesOf line) (sl.flawsOf line ++ flaws)

/-- 01 R1: a span write stores values into columns `c0` on, each with a fresh check code, and leaves the others. -/
def writeSpan (line : Nat) (sl : StoreLine) (c0 : Nat) (vs : List Half) : StoreLine :=
  .held ((sl.valuesOf line).take c0 ++ vs ++ (sl.valuesOf line).drop (c0 + vs.length))
    ((sl.flawsOf line).filter fun f => f.1 < c0 || c0 + vs.length ≤ f.1)

end StoreLine

namespace LineStore

/-- What a line holds. -/
def line (st : LineStore) (n : Nat) : StoreLine := st.lines.getD n (.held [] [])

/-- Whether a line's damage mark is set. -/
def marked (st : LineStore) (n : Nat) : Bool := st.marks.getD n false

/-- Whether the read of an unmarked line, 0 to 383, meets a fault that the check code cannot correct (01 R2). -/
def damages (st : LineStore) (n : Nat) (flaws : List (Nat × Flaw)) : Bool :=
  n < Config.storeLines && (((st.line n).addFlaws n flaws).flawsOf n).any fun f => f.2 == .uncorrectable

/-- 01 R2: what a line read answers. A single-bit fault is corrected in the delivered data. -/
def readAnswer (st : LineStore) (n : Nat) (flaws : List (Nat × Flaw)) : ReadAnswer :=
  if st.marked n then .damaged false
  else if st.damages n flaws then .damaged true
  else .values ((st.line n).valuesOf n)

/-- 01 R2, R4: what a line read does to the store: the flaws stay, and a damaged line is marked and counted. -/
def afterRead (st : LineStore) (n : Nat) (flaws : List (Nat × Flaw)) : LineStore :=
  if st.marked n then st
  else if st.damages n flaws then
    { lines := st.lines.set n ((st.line n).addFlaws n flaws), marks := st.marks.set n true,
      markedCount := st.markedCount + 1 }
  else { st with lines := st.lines.set n ((st.line n).addFlaws n flaws) }

/-- 01 R1, R3: a whole-line write, whether or not the line is marked. -/
def writeWhole (st : LineStore) (n : Nat) (vs : List Half) : LineStore :=
  { st with lines := st.lines.set n (.held vs []) }

/-- 01 R1, R3: a span write. -/
def writeSpan (st : LineStore) (sp : Span) : LineStore :=
  { st with lines := st.lines.set sp.line ((st.line sp.line).writeSpan sp.line sp.c0 sp.values) }

end LineStore

/-- The flaws of a line read's operand that lie in a column of the line (01 R1). -/
def inColumns (flaws : List (Nat × Flaw)) : List (Nat × Flaw) := flaws.filter fun f => f.1 < Config.columns

/-- The DAMAGE_LIMIT request naming the seventeenth line (08 R147, R154). -/
def damageLimitRequest (line : Nat) : FaultRequest :=
  { code := .damageLimit, lane := none, address := none, serial := none, row := none, line := some line, frame := none }

/-- 01 R4, 08 R154: what the Line Store sends when a read has marked a line: the mark notice, and with the seventeenth
mark the damage limit report to the Mode Controller and the Fault Recorder. -/
def State.reportMark (s : State) (line countBefore : Nat) : State :=
  let s1 := { s with mail := { s.mail with markNotices := s.mail.markNotices ++ [line] } }
  if countBefore = Config.damageLimit then
    { s1 with mail := { s1.mail with damageLimit := s1.mail.damageLimit + 1 } }.askFault .lineStore
      (damageLimitRequest line)
  else s1

/-- A line read served by the Line Store, whoever asked (01 R2, R4). -/
def State.serveRead (s : State) (n : Nat) (flaws : List (Nat × Flaw)) : State :=
  match s.store.readAnswer n (inColumns flaws) with
  | .damaged true => { s with store := s.store.afterRead n (inColumns flaws) }.reportMark n s.store.markedCount
  | .damaged false | .values _ => { s with store := s.store.afterRead n (inColumns flaws) }

/-- The answer to that read. -/
def State.readAnswer (s : State) (n : Nat) (flaws : List (Nat × Flaw)) : ReadAnswer :=
  s.store.readAnswer n (inColumns flaws)

/-- Replace the engine's link. -/
def State.setLink (s : State) (k : EngineLink) : State := { s with engine := { s.engine with link := k } }

/-- LINE_READ (01 R2): the read the engine or the Scan Unit has outstanding. -/
def execLineRead (reader : LineReader) (flaws : List (Nat × Flaw)) (s : State) : Result :=
  .next <|
    match reader with
    | .engine =>
      match s.engine.link with
      | .copyRead row base target =>
        (s.serveRead base flaws).setLink (.copyReadAnswered row base target (s.readAnswer base flaws))
      | .rowRead row line => (s.serveRead line flaws).setLink (.rowReadAnswered row line (s.readAnswer line flaws))
      | _ => s
    | .scanUnit =>
      match s.scan.rowPhase with
      | .lineRead line =>
        let t := s.serveRead line flaws
        { t with scan := { t.scan with rowPhase := .answered line (s.readAnswer line flaws) } }
      | _ => s

/-- WHOLE_LINE_WRITE (01 R1): the engine's copy, or the Mode Controller's fill of line 0 in STARTING (R18). -/
def execWholeLineWrite (writer : LineWriter) (s : State) : Result :=
  .next <|
    match writer with
    | .engine =>
      match s.engine.link with
      | .copyWrite target vs => { s with store := s.store.writeWhole target vs }.setLink (.copyWritten target)
      | _ => s
    | .modeController =>
      match s.mode.startup with
      | .fillAsked =>
        { s with store := s.store.writeWhole 0 (solidRow s.background), mode := { s.mode with startup := .fillDone } }
      | _ => s

/-- SPAN_WRITE (01 R1): the engine's pixels. -/
def execSpanWrite (s : State) : Result :=
  .next <|
    match s.engine.link with
    | .spanWrite span rest => { s with store := s.store.writeSpan span }.setLink (.spanWritten rest)
    | _ => s

end Sys2Proof.Machine
end

