-- ==== Sys2Proof/Machine/MapUnit.lean ====
section
/-! DEFINITION. The Map Unit (01 R5 to R19): views, the claims that stage, unwinding, publication and mark notices. -/

namespace Sys2Proof.Machine

namespace MapUnit

/-- The live map entry of a row (01 R5). -/
def liveLine (m : MapUnit) (row : Nat) : Nat := m.live.getD row 0

/-- The staging entry of a row (01 R6). -/
def staged (m : MapUnit) (row : Nat) : Option StagedEntry := m.staging.getD row none

/-- Live count and stage count of a line (01 R7). -/
def liveOf (m : MapUnit) (line : Nat) : Nat := m.liveCount.getD line 0
def stageOf (m : MapUnit) (line : Nat) : Nat := m.stageCount.getD line 0

/-- The line of the row's staged entry if it is owned by the set (01 R6). -/
def ownLine (m : MapUnit) (set : SetId) (row : Nat) : Option Nat :=
  match m.staged row with
  | some e => if e.owner = set then some e.line else none
  | none => none

/-- 01 R11: the view of a row for a set. -/
def view (m : MapUnit) (set : SetId) (row : Nat) : Nat := (m.ownLine set row).getD (m.liveLine row)

/-- Add to or take from a line's counts (01 R7). -/
def raiseStage (m : MapUnit) (line : Nat) : MapUnit :=
  { m with stageCount := m.stageCount.set line (m.stageOf line + 1) }
def lowerStage (m : MapUnit) (line : Nat) : MapUnit :=
  { m with stageCount := m.stageCount.set line (m.stageOf line - 1) }
def raiseLive (m : MapUnit) (line : Nat) : MapUnit :=
  { m with liveCount := m.liveCount.set line (m.liveOf line + 1) }
def lowerLive (m : MapUnit) (line : Nat) : MapUnit :=
  { m with liveCount := m.liveCount.set line (m.liveOf line - 1) }

/-- Whether no row and no staged entry names the line (01 R8). -/
def unreferenced (m : MapUnit) (line : Nat) : Bool := m.liveOf line == 0 && m.stageOf line == 0

/-- 01 R8: the return test of a line a claim has lowered, by the marks the Map Unit knows of (R19). -/
def returnTest (marks : List Bool) (m : MapUnit) (line : Nat) : MapUnit :=
  if m.unreferenced line then
    (if marks.getD line false then { m with damaged := m.damaged ++ [line] } else { m with pool := m.pool ++ [line] })
  else m

/-- Make an entry present or absent. -/
def putStaged (m : MapUnit) (row : Nat) (e : Option StagedEntry) : MapUnit :=
  { m with staging := m.staging.set row e }

/-- 01 R12: the stage step, which makes `line` the staged line of the row for the set. An entry of another set, which
no claim meets (R6), is replaced with its count lowered (log 22). -/
def stageStep (marks : List Bool) (set : SetId) (line : Nat) (m : MapUnit) (row : Nat) : MapUnit :=
  match m.staged row with
  | none => (m.raiseStage line).putStaged row (some ⟨line, set⟩)
  | some e =>
    if e.line = line then m.putStaged row (some ⟨line, set⟩)
    else returnTest marks (((m.raiseStage line).putStaged row (some ⟨line, set⟩)).lowerStage e.line) e.line

/-- Whether the row is private to the set on its staged line (01 R13, *in place*). -/
def privateLine (m : MapUnit) (set : SetId) (row : Nat) : Option Nat :=
  match m.ownLine set row with
  | some p => if m.liveOf p = 0 ∧ m.stageOf p = 1 then some p else none
  | none => none

/-- 01 R13: what a write claim answers. -/
def writeAnswer (m : MapUnit) (set : SetId) (row : Nat) : WriteAnswer :=
  match m.privateLine set row, m.pool with
  | some p, _ => .inPlace p
  | none, n :: _ => .copy n (m.view set row)
  | none, [] => .noRoom

/-- Whether the map has a row (01 R5). The checks of 02 R33 let no claim name another. -/
def hasRow (row : Nat) : Bool := row < Config.rows

/-- 01 R13: what a write claim changes. -/
def afterWrite (marks : List Bool) (m : MapUnit) (set : SetId) (row : Nat) : MapUnit :=
  if hasRow row then
    match m.privateLine set row, m.pool with
    | some _, _ => m
    | none, n :: rest => stageStep marks set n { m with pool := rest } row
    | none, [] => m
  else m

/-- 01 R14: a clean alias claim stages the line that row `q` shows the set on every row, in ascending order. -/
def afterAlias (marks : List Bool) (m : MapUnit) (set : SetId) (q : Nat) (rows : List Nat) : MapUnit :=
  if hasRow q then (rows.filter hasRow).foldl (stageStep marks set (m.view set q)) m else m

/-- 01 R15: the row whose view line row r receives: row0 + ((r − row0 + d) mod h). -/
def shiftSource (row0 height : Nat) (d : Int) (row : Nat) : Nat :=
  row0 + (((row : Int) - row0 + d) % height).toNat

/-- 01 R15, step 1 for one row: the new line's stage count, where the row's staged line differs or is absent. -/
def shiftRaise (m : MapUnit) (move : Nat × Nat) : MapUnit :=
  match m.staged move.1 with
  | some e => if e.line = move.2 then m else m.raiseStage move.2
  | none => m.raiseStage move.2

/-- 01 R15, steps 3 and 4 for one row: the previous staged line, if it was a different one, is lowered and tested. -/
def shiftLower (marks : List Bool) (before : MapUnit) (m : MapUnit) (move : Nat × Nat) : MapUnit :=
  match before.staged move.1 with
  | some e => if e.line = move.2 then m else returnTest marks (m.lowerStage e.line) e.line
  | none => m

/-- 01 R15: the shift claim over a range of rows with each row's new line, resolved before anything is staged. -/
def afterMoves (marks : List Bool) (m : MapUnit) (set : SetId) (moves : List (Nat × Nat)) : MapUnit :=
  moves.foldl (shiftLower marks m)
    (moves.foldl (fun m' mv => m'.putStaged mv.1 (some ⟨mv.2, set⟩)) (moves.foldl shiftRaise m))

/-- The rows of a shift with their new lines (01 R15). -/
def shiftMoves (m : MapUnit) (set : SetId) (row0 height : Nat) (d : Int) : List (Nat × Nat) :=
  if row0 + height ≤ Config.rows then
    (List.range' row0 height).map fun r => (r, m.view set (shiftSource row0 height d r))
  else []

/-- 01 R15: the shift claim. -/
def afterShift (marks : List Bool) (m : MapUnit) (set : SetId) (row0 height : Nat) (d : Int) : MapUnit :=
  m.afterMoves marks set (m.shiftMoves set row0 height d)

/-- The rows 0 to 239 (01 R5). -/
def allRows : List Nat := List.range Config.rows

/-- The number of entries a set owns (01 R6). -/
def ownedCount (m : MapUnit) (set : SetId) : Nat := (allRows.filter fun r => (m.ownLine set r).isSome).length

/-- 01 R16 for one row. -/
def unwindRow (marks : List Bool) (set : SetId) (m : MapUnit) (row : Nat) : MapUnit :=
  match m.ownLine set row with
  | some p => returnTest marks ((m.putStaged row none).lowerStage p) p
  | none => m

/-- 01 R16: the unwind claim, rows ascending. -/
def afterUnwind (marks : List Bool) (m : MapUnit) (set : SetId) : MapUnit := allRows.foldl (unwindRow marks set) m

/-- 01 R17 for one row: O is the old live line, N the staged line. -/
def publishRow (marks : List Bool) (set : SetId) (m : MapUnit) (row : Nat) : MapUnit :=
  match m.ownLine set row with
  | none => m
  | some n =>
    let m1 := (m.putStaged row none).lowerStage n
    if n = m.liveLine row then m1
    else
      returnTest marks (({ m1 with live := m1.live.set row n }.raiseLive n).lowerLive (m.liveLine row)) (m.liveLine row)

/-- 01 R17: whether a publish claim changes a live map entry: some row's staged line differs from its live line. -/
def publishChanges (m : MapUnit) (set : SetId) : Bool :=
  allRows.any fun r => match m.ownLine set r with
    | some n => n != m.liveLine r
    | none => false

/-- 01 R17, R18: the publish claim, rows ascending; the map-fresh flag is cleared if an entry changed. -/
def afterPublish (marks : List Bool) (m : MapUnit) (set : SetId) : MapUnit :=
  { allRows.foldl (publishRow marks set) m with fresh := m.fresh && !m.publishChanges set }

/-- 01 R10: a mark notice. A line in the pool moves to the damaged list; a referenced line stays. -/
def afterMark (m : MapUnit) (line : Nat) : MapUnit :=
  if m.pool.contains line then { m with pool := m.pool.erase line, damaged := m.damaged ++ [line] } else m

end MapUnit

/-- The damage marks as the Map Unit knows them: those set, but for the lines whose mark notice is still under way (01
R4, R19). A line returned before its notice joins the pool, and the notice then moves it (R10, R19). -/
def State.knownMarks (s : State) : List Bool := s.mail.markNotices.foldl (fun ms line => ms.set line false) s.store.marks

/-- The lines a claim returned to the pool: a claim of this kind only appends to it (01 R16, R17). -/
def returnedLines (before after : MapUnit) : Nat := after.pool.length - before.pool.length

/-- VIEW_READ (01 R11): the view line of the row a READBACK has reached. -/
def execViewRead (s : State) : Result :=
  .next <|
    match s.engine.link, s.engine.slot with
    | .viewRead row, some sl => s.setLink (.viewAnswered row (s.map.view sl.setId row))
    | _, _ => s

/-- LIVE_READ (01 R5, 04 R75): the live line of the row being scanned; the Scan Unit then asks for that line. -/
def execLiveRead (s : State) : Result :=
  .next <|
    match s.scan.rowPhase, s.scan.row with
    | .liveRead, some row => { s with scan := { s.scan with rowPhase := .lineRead (s.map.liveLine row) } }
    | _, _ => s

/-- WRITE_CLAIM (01 R13). -/
def execWriteClaim (s : State) : Result :=
  .next <|
    match s.engine.link, s.engine.slot with
    | .writeClaim row, some sl =>
      { s with map := s.map.afterWrite s.knownMarks sl.setId row }.setLink
        (.writeAnswered row (s.map.writeAnswer sl.setId row))
    | _, _ => s

/-- ALIAS_CLAIM (01 R14): the source line is resolved, check-read, and staged on every row of the window if clean. -/
def execAliasClaim (flaws : List (Nat × Flaw)) (s : State) : Result :=
  .next <|
    match s.engine.link, s.engine.slot with
    | .aliasClaim, some sl =>
      match sl.op with
      | none => s
      | some op =>
        let line := s.map.view sl.setId op.sourceRow
        let t := s.serveRead line flaws
        match s.readAnswer line flaws with
        | .damaged newly => t.setLink (.aliasAnswered (.damaged line newly))
        | .values _ =>
          { t with map := t.map.afterAlias t.knownMarks sl.setId op.sourceRow op.windowRows }.setLink (.aliasAnswered .done)
    | _, _ => s

/-- SHIFT_CLAIM (01 R15). -/
def execShiftClaim (s : State) : Result :=
  .next <|
    match s.engine.link, s.engine.slot with
    | .shiftClaim, some sl =>
      match sl.op with
      | none => s
      | some op =>
        { s with map := s.map.afterShift s.knownMarks sl.setId op.top op.height op.distance }.setLink .shiftAnswered
    | _, _ => s

/-- UNWIND_CLAIM (01 R16): answers the entries removed and the lines returned to the pool. -/
def execUnwindClaim (s : State) : Result :=
  .next <|
    match s.engine.link, s.engine.slot with
    | .unwindClaim, some sl =>
      let m := s.map.afterUnwind s.knownMarks sl.setId
      { s with map := m }.setLink (.unwindAnswered (s.map.ownedCount sl.setId) (returnedLines s.map m))
    | _, _ => s

/-- 04 R85: the ready-queue entry of a published set. -/
def ReadyEntry.publish (set : SetId) (frame : Word) (rows : Nat) (e : ReadyEntry) : ReadyEntry :=
  if e.lane = set.lane ∧ e.header.serial = set.serial ∧ e.condition = .waiting then
    { e with condition := .published, commitFrame := frame, rowsStaged := rows }
  else e

/-- PUBLISH_CLAIM (01 R17, 04 R85): the Map Unit publishes the next set of the take, and the Commit Unit keeps the
answer: rows staged, lines returned, whether an entry changed (log 33). -/
def execPublishClaim (s : State) : Result :=
  .next <|
    match s.commit.take with
    | [] => s
    | set :: rest =>
      let m := s.map.afterPublish s.knownMarks set
      { s with
        map := m
        commit := { s.commit with
          take := rest
          ready := s.commit.ready.map (ReadyEntry.publish set s.commit.frame (s.map.ownedCount set))
          published := s.commit.published + 1
          returned := s.commit.returned + returnedLines s.map m
          changed := s.commit.changed || s.map.publishChanges set } }

/-- MARK_NOTICE (01 R10). -/
def execMarkNotice (s : State) : Result :=
  .next <|
    match s.mail.markNotices with
    | [] => s
    | line :: rest => { s with map := s.map.afterMark line, mail := { s.mail with markNotices := rest } }

end Sys2Proof.Machine
end

