-- ==== Sys2Proof/Machine/ApplyEngine.lean ====
section
/-! DEFINITION. The Apply Engine (Chapter 3) and the ops it carries out (Chapter 2): one request at a time, finishing,
aborting, starvation, and the requests and notices that reach a set in flight. -/

namespace Sys2Proof.Machine

/-! ## Moving the slot on -/

/-- The slot and the engine's next request. -/
def State.setSlot (s : State) (sl : Slot) (k : EngineLink) : State :=
  { s with engine := { s.engine with slot := some sl, link := k } }

/-- 03 R59: an abort begins. `unwind` is whether an unwind claim is sent first; rows staged is filled in from its
answer. An engine in STARVED leaves it (R62, R65). -/
def State.abortSet (s : State) (sl : Slot) (unwind : Bool) (outcome : SetOutcome) (failedOp : Option Nat) : State :=
  { s with engine := { s.engine with
      state := .applying
      slot := some { sl with progress := .none, final := some ⟨outcome, failedOp, 0⟩ }
      link := if unwind then .unwindClaim else .outcomeWrite } }

/-- 03 R66: the outcome of a noted abort cause. -/
def AbortCause.outcome : AbortCause → SetOutcome
  | .stopped => .stopped
  | .dropped => .dropped

/-- 03 R53, step 4: an op is complete; the engine goes on to the next op record, or to the trailer. -/
def State.opDone (s : State) (sl : Slot) : State :=
  s.setSlot { sl with opIndex := sl.opIndex + 1, progress := .none, named := [] }
    (if sl.opIndex + 1 < sl.header.opCount.toNat then .opRead else .trailerEnd)

/-- 03 R53, step 3: the first request of an op that has passed its checks. -/
def State.beginOp (s : State) (sl : Slot) (op : OpRecord) : OpKind → State
  | .fill => s.setSlot { sl with op := some op, progress := .fill op.top, named := [] } (.writeClaim op.top)
  | .blit => s.setSlot { sl with op := some op, progress := .blitClaim op.top, named := [] } (.writeClaim op.top)
  | .shift => s.setSlot { sl with op := some op, progress := .none, named := [] } .shiftClaim
  | .aliasRows => s.setSlot { sl with op := some op, progress := .none, named := [] } .aliasClaim
  | .readback => s.setSlot { sl with op := some op, progress := .readback op.top, named := [] } (.viewRead op.top)

/-- 02 R36, R39: a row's write claim has given it a line, copied if the claim asked for a copy. A FILL writes its
colour; a BLIT names the line and goes on to the next row, or to its transfer phase. -/
def State.lineNamed (s : State) (sl : Slot) (op : OpRecord) (line : Nat) : State :=
  match sl.progress with
  | .fill _ => s.setSlot sl (.spanWrite ⟨line, op.left, List.replicate op.width op.colour⟩ [])
  | .blitClaim row =>
    if row < op.bottom then
      s.setSlot { sl with progress := .blitClaim (row + 1), named := sl.named ++ [line] } (.writeClaim (row + 1))
    else s.setSlot { sl with progress := .blitTransfer 0, named := sl.named ++ [line] } (.sourceRead 0)
  | .none | .blitTransfer _ | .readback _ => s

/-- 02 R36, R40: the last span write of a row or of a source row is done. -/
def State.spansDone (s : State) (sl : Slot) (op : OpRecord) : State :=
  match sl.progress with
  | .fill row =>
    if row < op.bottom then s.setSlot { sl with progress := .fill (row + 1) } (.writeClaim (row + 1)) else s.opDone sl
  | .blitTransfer y =>
    if y + 1 < op.sourceHeight then s.setSlot { sl with progress := .blitTransfer (y + 1) } (.sourceRead (y + 1))
    else s.opDone sl
  | .none | .blitClaim _ | .readback _ => s

/-- 02 R38, R40: where the values of source row `y` go. Without exchange they fill one window row; with exchange they
fill one window column, one value to each line. `named` are the lines of the window rows from the first on. R40 does
not give the order of the single-column writes: by ascending source column, DESIGN CHOICE (log 39). -/
def blitSpans (op : OpRecord) (named : List Nat) (y : Nat) (vs : List Half) : List Span :=
  if op.exchange then
    (List.range op.height).map fun x =>
      { line := named.getD (if op.mirrorRows then op.height - 1 - x else x) 0
        c0 := op.left + (if op.mirrorColumns then op.width - 1 - y else y)
        values := [vs.getD x 0] }
  else
    [{ line := named.getD (if op.mirrorRows then op.height - 1 - y else y) 0
       c0 := op.left
       values := if op.mirrorColumns then vs.reverse else vs }]

/-- 03 R56: the LINE_DAMAGED request of the engine. -/
def lineDamagedRequest (sl : Slot) (line row : Nat) : FaultRequest :=
  { code := .lineDamaged, lane := some sl.lane, address := some sl.header.address, serial := some sl.header.serial,
    row := some row, line := some line, frame := none }

/-- 03 R56, R66: a line read or alias claim of the engine answered damaged. The request is made for a new mark alone;
a noted abort cause then decides the outcome, otherwise it is STORE_ERROR. -/
def State.damageMet (s : State) (sl : Slot) (line row : Nat) (newly : Bool) : State :=
  let t := if newly then s.askFault .engine (lineDamagedRequest sl line row) else s
  match sl.abortCause with
  | some c => t.abortSet sl true c.outcome none
  | none => t.abortSet sl true .storeError (some sl.opIndex)

/-! ## The steps of a set -/

/-- TRAILER_READ_START (03 R52): equal serials go on to op 0, or straight to the second trailer read; different ones
end the set TORN; a bus error ends it TRANSFER_FAULT. Nothing is staged, so no unwind claim is sent (R59). -/
def execTrailerReadStart (bus : BusEvent) (s : State) : Result :=
  .next <|
    match s.engine.link, s.engine.slot with
    | .trailerStart, some sl =>
      let t := s.busRead bus
      match sl.abortCause, s.busData bus sl.header.trailerAddress 16 with
      | some c, _ => t.abortSet sl false c.outcome none
      | none, none => t.abortSet sl false .transferFault none
      | none, some bs =>
        if halfAt bs 0 = sl.header.serial then
          t.setSlot sl (if sl.header.opCount = 0 then .trailerEnd else .opRead)
        else t.abortSet sl false .torn none
    | _, _ => s

/-- OP_RECORD_READ (03 R53, 02 R31, R32): the record is kept and checked, and the op begun or the set aborted. -/
def execOpRecordRead (bus : BusEvent) (s : State) : Result :=
  .next <|
    match s.engine.link, s.engine.slot with
    | .opRead, some sl =>
      let t := s.busRead bus
      match sl.abortCause, s.busData bus (sl.header.opAddress sl.opIndex) 16 with
      | some c, _ => t.abortSet sl true c.outcome none
      | none, none => t.abortSet sl true .transferFault (some sl.opIndex)
      | none, some bs =>
        let op := opRecordOf bs
        match op.check s.mode.plan sl.lane with
        | .error o => t.abortSet { sl with op := some op } true o (some sl.opIndex)
        | .ok k => t.beginOp sl op k
    | _, _ => s

/-- WRITE_CLAIM_ANSWER (02 R35, 03 R54, R61): write in place, read the copy base, or starve. A noted abort cause comes
first: no copy is made and the engine does not enter STARVED (R66). -/
def execWriteClaimAnswer (s : State) : Result :=
  .next <|
    match s.engine.link, s.engine.slot with
    | .writeAnswered row answer, some sl =>
      match sl.abortCause, sl.op, answer with
      | some c, _, _ => s.abortSet sl true c.outcome none
      | none, none, _ => s
      | none, some op, .inPlace line => s.lineNamed sl op line
      | none, some _, .copy line base => s.setLink (.copyRead row base line)
      | none, some _, .noRoom => { s with engine := { s.engine with state := .starved, link := .quiet } }
    | _, _ => s

/-- ENGINE_LINE_READ_ANSWER (02 R35, R47, 03 R54, R56): the copy is written whole, or the readback row goes to memory,
or the set ends STORE_ERROR. -/
def execEngineLineReadAnswer (s : State) : Result :=
  .next <|
    match s.engine.link, s.engine.slot with
    | .copyReadAnswered row base target answer, some sl =>
      match answer, sl.abortCause with
      | .damaged newly, _ => s.damageMet sl base row newly
      | .values _, some c => s.abortSet sl true c.outcome none
      | .values vs, none => s.setLink (.copyWrite target vs)
    | .rowReadAnswered row line answer, some sl =>
      match answer, sl.abortCause, sl.op with
      | .damaged newly, _, _ => s.damageMet sl line row newly
      | .values _, some c, _ => s.abortSet sl true c.outcome none
      | .values vs, none, some op => s.setLink (.readbackWrite row (op.readbackBytes vs))
      | .values _, none, none => s
    | _, _ => s

/-- ENGINE_LINE_WRITE_DONE (03 R54, 02 R36, R39, R40): after a copy come the pixels of the row; after a span write, the
next span, row or source row. -/
def execEngineLineWriteDone (s : State) : Result :=
  .next <|
    match s.engine.link, s.engine.slot with
    | .copyWritten target, some sl =>
      match sl.abortCause, sl.op with
      | some c, _ => s.abortSet sl true c.outcome none
      | none, some op => s.lineNamed sl op target
      | none, none => s
    | .spanWritten rest, some sl =>
      match sl.abortCause, sl.op, rest with
      | some c, _, _ => s.abortSet sl true c.outcome none
      | none, some _, span :: rest' => s.setLink (.spanWrite span rest')
      | none, some op, [] => s.spansDone sl op
      | none, none, _ => s
    | _, _ => s

/-- ALIAS_CLAIM_ANSWER (02 R45): the op is complete, or the set ends STORE_ERROR. -/
def execAliasClaimAnswer (s : State) : Result :=
  .next <|
    match s.engine.link, s.engine.slot with
    | .aliasAnswered answer, some sl =>
      match answer, sl.abortCause, sl.op with
      | .damaged line newly, _, some op => s.damageMet sl line op.sourceRow newly
      | .done, some c, _ => s.abortSet sl true c.outcome none
      | .done, none, _ => s.opDone sl
      | .damaged _ _, _, none => s
    | _, _ => s

/-- SHIFT_CLAIM_ANSWER (02 R43). -/
def execShiftClaimAnswer (s : State) : Result :=
  .next <|
    match s.engine.link, s.engine.slot with
    | .shiftAnswered, some sl =>
      match sl.abortCause with
      | some c => s.abortSet sl true c.outcome none
      | none => s.opDone sl
    | _, _ => s

/-- VIEW_READ_ANSWER (02 R47): the named line is read whole from the Line Store. -/
def execViewReadAnswer (s : State) : Result :=
  .next <|
    match s.engine.link, s.engine.slot with
    | .viewAnswered row line, some sl =>
      match sl.abortCause with
      | some c => s.abortSet sl true c.outcome none
      | none => s.setLink (.rowRead row line)
    | _, _ => s

/-- SOURCE_ROW_READ (02 R40): the values of a source row go to the lines of the window. -/
def execSourceRowRead (bus : BusEvent) (s : State) : Result :=
  .next <|
    match s.engine.link, s.engine.slot with
    | .sourceRead y, some sl =>
      match sl.op with
      | none => s
      | some op =>
        let t := s.busRead bus
        match sl.abortCause, s.busData bus (op.sourceRowAddress y) (2 * op.sourceWidth) with
        | some c, _ => t.abortSet sl true c.outcome none
        | none, none => t.abortSet sl true .transferFault (some sl.opIndex)
        | none, some bs =>
          match blitSpans op sl.named y (coloursOf bs op.sourceWidth) with
          | span :: rest => t.setLink (.spanWrite span rest)
          | [] => t
    | _, _ => s

/-- READBACK_ROW_WRITE (02 R47): the row is in memory, and the next row is viewed. -/
def execReadbackRowWrite (bus : BusEvent) (s : State) : Result :=
  .next <|
    match s.engine.link, s.engine.slot with
    | .readbackWrite row bytes, some sl =>
      match sl.op with
      | none => s
      | some op =>
        let t := s.busWrite bus (op.readbackAddress row) bytes
        match sl.abortCause with
        | some c => t.abortSet sl true c.outcome none
        | none =>
          if !busClean bus then t.abortSet sl true .transferFault (some sl.opIndex)
          else if row < op.bottom then t.setSlot { sl with progress := .readback (row + 1) } (.viewRead (row + 1))
          else t.opDone sl
    | _, _ => s

/-- TRAILER_READ_END (03 R57): an equal serial hands the set to the ready queue; otherwise it is unwound. -/
def execTrailerReadEnd (bus : BusEvent) (s : State) : Result :=
  .next <|
    match s.engine.link, s.engine.slot with
    | .trailerEnd, some sl =>
      let t := s.busRead bus
      match sl.abortCause, s.busData bus sl.header.trailerAddress 16 with
      | some c, _ => t.abortSet sl true c.outcome none
      | none, none => t.abortSet sl true .transferFault none
      | none, some bs =>
        if halfAt bs 0 = sl.header.serial then t.setLink .readyAppend else t.abortSet sl true .torn none
    | _, _ => s

/-- UNWIND_ANSWER (03 R59, R60): rows staged is the count removed, and the outcome write begins. -/
def execUnwindAnswer (s : State) : Result :=
  .next <|
    match s.engine.link, s.engine.slot with
    | .unwindAnswered removed _, some sl =>
      match sl.final with
      | some f => s.setSlot { sl with final := some { f with rowsStaged := removed } } .outcomeWrite
      | none => s
    | _, _ => s

/-- ABORT_OUTCOME_WRITE (03 R59, R68): the four outcome fields are written, the end is reported to the Lane Service,
then any completion reports, and the engine is IDLE. -/
def execAbortOutcomeWrite (bus : BusEvent) (s : State) : Result :=
  .next <|
    match s.engine.link, s.engine.slot with
    | .outcomeWrite, some sl =>
      match sl.final with
      | none => s
      | some f =>
        let t := s.busWrite bus (sl.header.address + 16#32) (outcomeBytes sl.fetchedFrame f.outcome f.failedOp f.rowsStaged)
        let report : EndReport :=
          { lane := sl.lane, address := sl.header.address, serial := sl.header.serial, outcome := f.outcome,
            written := busClean bus }
        { t with
          engine := .reset
          mail := { t.mail with engineReports :=
            t.mail.engineReports ++ .ended report :: List.replicate s.engine.completionsOwed (.completion sl.lane) } }
    | _, _ => s

/-- The row a starved op was refused (03 R61). -/
def Progress.refusedRow : Progress → Nat
  | .fill row | .blitClaim row => row
  | .none | .blitTransfer _ | .readback _ => 0

/-- RELEASE_NOTICE (03 R62, R63): a starved set resumes on one line or more and ends NO_ROOM on none; otherwise the
notice is discarded. -/
def execReleaseNotice (s : State) : Result :=
  .next <|
    match s.mail.releaseNotices with
    | [] => s
    | lines :: rest =>
      let t := { s with mail := { s.mail with releaseNotices := rest } }
      match s.engine.state, s.engine.slot with
      | .starved, some sl =>
        if lines = 0 then t.abortSet sl true .noRoom (some sl.opIndex)
        else { t with engine := { t.engine with state := .applying, link := .writeClaim sl.progress.refusedRow } }
      | _, _ => t

/-- 03 R54, R65: whether the engine can act on an abort request at once: in STARVED, or with no request of it
outstanding. An append not yet taken by the Commit Unit counts as none (R69). -/
def ApplyEngine.free (e : ApplyEngine) : Bool :=
  match e.link with
  | .quiet | .readyAppend => true
  | _ => false

/-- 03 R65 to R67, R69: an abort request reaches the set in the slot. A set already ending, or with a cause noted,
keeps the outcome of what came first. -/
def State.requestAbort (s : State) (sl : Slot) (c : AbortCause) : State :=
  if sl.final.isSome || sl.abortCause.isSome then s
  else if s.engine.free then s.abortSet sl true c.outcome none
  else { s with engine := { s.engine with slot := some { sl with abortCause := some c } } }

/-- ABORT_REQUEST_STOP (03 R65). -/
def execAbortRequestStop (s : State) : Result :=
  .next <|
    if s.mail.abortStop then
      let t := { s with mail := { s.mail with abortStop := false } }
      match s.engine.slot with
      | none => t
      | some sl => t.requestAbort sl .stopped
    else s

/-- ABORT_REQUEST_LANE (03 R67, R68): the engine drops its set of that lane and reports completion when the abort has
ended, or reports it at once if it holds none. -/
def execAbortRequestLane (s : State) : Result :=
  .next <|
    match s.mail.abortLanes with
    | [] => s
    | l :: rest =>
      let t := { s with mail := { s.mail with abortLanes := rest } }
      let atOnce := { t with mail := { t.mail with engineReports := t.mail.engineReports ++ [.completion l] } }
      match s.engine.slot with
      | none => atOnce
      | some sl =>
        if sl.lane = l then
          { t with engine := { t.engine with completionsOwed := t.engine.completionsOwed + 1 } }.requestAbort sl .dropped
        else atOnce

end Sys2Proof.Machine
end

