-- ==== Sys2Proof/Machine/ScanUnit.lean ====
section
/-! DEFINITION. The Scan Unit (Chapter 4): frames, rows, the frame boundary, and the orders of the Mode Controller. -/

namespace Sys2Proof.Machine

/-- 04 R75, R76, R78: what the output of a row needs: nothing but the background colour in a blank frame and in a hidden
zone, otherwise a live read. -/
def State.rowNeed (s : State) (row : Nat) : RowPhase :=
  if s.scan.blank then .background
  else match s.mode.plan with
    | some p => if p.hides row then .background else .liveRead
    | none => .liveRead

/-- 04 R73, R81: the time from a frame's start to the next frame due. -/
def State.cadence (s : State) : Nat := if s.scan.mode = .held then s.heldPeriod else s.period

/-- 04 R73: a frame starts at a moment. -/
def State.startFrame (s : State) (moment : Nat) : State :=
  { s with
    now := moment
    scan := { s.scan with
      frameStart := moment
      nextDue := moment + s.cadence
      row := some 0
      rowPhase := s.rowNeed 0
      output := .frameMark } }

/-- FRAME_START (04 R74): a frame that follows a boundary starts when the next frame due has been reached and the
publication report has arrived. -/
def execFrameStart (moment : Nat) (s : State) : Result :=
  .next <|
    if s.scan.mode ≠ .still ∧ s.scan.row = none ∧ s.scan.publicationAwaited = false ∧
        s.scan.nextDue ≤ max s.now moment then
      s.startFrame (max s.now moment)
    else s

/-- 04 R75 to R77: the 320 values a row shows; none while a request for it is outstanding. -/
def State.rowValues (s : State) : Option (List Half) :=
  match s.scan.rowPhase with
  | .background => some (solidRow s.background)
  | .answered _ (.values vs) => some vs
  | .answered _ (.damaged _) => some (solidRow s.faultColour)
  | .noRow | .liveRead | .lineRead _ => none

/-- 04 R77: the LINE_DAMAGED request of the Scan Unit. -/
def scanDamageRequest (line row : Nat) (frame : Word) : FaultRequest :=
  { code := .lineDamaged, lane := none, address := none, serial := none, row := some row, line := some line,
    frame := some frame }

/-- 04 R77: asked for when the read of the row answered *newly damaged*. -/
def State.reportRowDamage (s : State) (row : Nat) : State :=
  match s.scan.rowPhase with
  | .answered line (.damaged true) => s.askFault .scanUnit (scanDamageRequest line row s.scan.frameCount)
  | _ => s

/-- 04 R79, R78, R80: the frame boundary. The frame count advances and the notice goes to the four units; a pending
finish stops the scan. -/
def State.raiseBoundary (s : State) : State :=
  { s with
    scan := { s.scan with
      row := none
      rowPhase := .noRow
      publicationAwaited := true
      blank := false
      finishPending := false
      mode := if s.scan.finishPending then .still else s.scan.mode
      frameCount := s.scan.frameCount + 1 }
    mail := { s.mail with
      commitBoundary := s.mail.commitBoundary ++ [s.scan.frameCount + 1]
      laneBoundary := s.mail.laneBoundary ++ [s.scan.frameCount + 1]
      arbiterBoundary := s.mail.arbiterBoundary ++ [s.scan.frameCount + 1]
      modeBoundary := s.mail.modeBoundary ++ [s.scan.frameCount + 1] } }

/-- After a row: the next row, or the boundary after row 239; a scan halted during the row ends with it (04 R80). -/
def State.afterRow (s : State) (row : Nat) : State :=
  if s.scan.mode = .still then { s with scan := { s.scan with row := none, rowPhase := .noRow } }
  else if row + 1 < Config.rows then
    { s with scan := { s.scan with row := some (row + 1), rowPhase := s.rowNeed (row + 1) } }
  else s.raiseBoundary

/-- ROW_OUTPUT (04 R73, R75): a row is output not before its row time is over, and the boundary follows row 239. -/
def execRowOutput (moment : Nat) (s : State) : Result :=
  .next <|
    match s.scan.row, s.rowValues with
    | some row, some vs =>
      if s.scan.frameStart + (row + 1) * s.rowTime ≤ max s.now moment then
        ({ s with now := max s.now moment, scan := { s.scan with output := .row row vs } }.reportRowDamage row).afterRow row
      else s
    | _, _ => s

/-- The order at the head has been taken. -/
def State.orderTaken (s : State) (rest : List ScanOrder) : State := { s with mail := { s.mail with scanOrders := rest } }

/-- BEGIN (04 R80). -/
def execBeginOrder (s : State) : Result :=
  .next <|
    match s.mail.scanOrders with
    | .begin :: rest =>
      if s.scan.mode = .still then
        { s.orderTaken rest with scan := { s.scan with mode := .frame } }.startFrame s.now
      else s.orderTaken rest
    | _ => s

/-- BEGIN_WITH_BLANK_FRAME (04 R78, R80). -/
def execBeginWithBlankFrame (s : State) : Result :=
  .next <|
    match s.mail.scanOrders with
    | .beginBlank :: rest =>
      if s.scan.mode = .still then
        { s.orderTaken rest with scan := { s.scan with mode := .frame, blank := true } }.startFrame s.now
      else s.orderTaken rest
    | _ => s

/-- FRAME_CADENCE (04 R80, R81): only in HELD. -/
def execFrameCadence (s : State) : Result :=
  .next <|
    match s.mail.scanOrders with
    | .frameCadence :: rest =>
      if s.scan.mode = .held then
        { s.orderTaken rest with
          scan := { s.scan with mode := .frame, nextDue := s.scan.frameStart + s.period } }
      else s.orderTaken rest
    | _ => s

/-- HELD_CADENCE (04 R80, R81): only in FRAME. -/
def execHeldCadence (s : State) : Result :=
  .next <|
    match s.mail.scanOrders with
    | .heldCadence :: rest =>
      if s.scan.mode = .frame then
        { s.orderTaken rest with
          scan := { s.scan with mode := .held, nextDue := s.scan.frameStart + s.heldPeriod } }
      else s.orderTaken rest
    | _ => s

/-- FINISH (04 R80, R81): sets finish pending; in HELD the frame cadence returns. -/
def execFinishOrder (s : State) : Result :=
  .next <|
    match s.mail.scanOrders with
    | .finish :: rest =>
      match s.scan.mode with
      | .still => s.orderTaken rest
      | .frame => { s.orderTaken rest with scan := { s.scan with finishPending := true } }
      | .held =>
        { s.orderTaken rest with
          scan := { s.scan with finishPending := true, mode := .frame, nextDue := s.scan.frameStart + s.period } }
    | _ => s

/-- 04 R80: scanning is halted, STILL at once; a row being output is finished (log 34). -/
def State.haltScan (s : State) : State :=
  if s.scan.mode = .still then s
  else { s with scan := { s.scan with mode := .still, publicationAwaited := false, blank := false } }

/-- 07 R137, R144: the ramp down of SLEEPING begins, its halt order taken and the Scan Unit STILL (log 17). -/
def State.haltTaken (s : State) : State :=
  if s.mode.haltSent then (s.setMode { s.mode with haltSent := false }).rampDown else s

/-- HALT_SCANNING (04 R80, 07 R144). -/
def execHaltScanning (s : State) : Result :=
  .next <|
    match s.mail.scanOrders with
    | .haltScanning :: rest => (s.orderTaken rest).haltScan.haltTaken
    | _ => s

/-- PUBLICATION_REPORT (04 R74, R86): the report of the boundary last raised clears publication awaited; one that finds
nothing waiting has no effect (R80, log 19). -/
def execPublicationReport (s : State) : Result :=
  .next <|
    match s.mail.scanReports with
    | [] => s
    | r :: rest =>
      let t := { s with mail := { s.mail with scanReports := rest } }
      if r.frame = s.scan.frameCount then { t with scan := { t.scan with publicationAwaited := false } } else t

end Sys2Proof.Machine
end

