-- ==== Sys2Proof/Machine/CommitUnit.lean ====
section
/-! DEFINITION. The Commit Unit (Chapter 4): the ready queue, the take and publication of a boundary, the commit mark
line, and the writing of COMMITTED outcomes. -/

namespace Sys2Proof.Machine

/-- READY_APPEND (04 R83, 03 R58): the finished set joins the tail WAITING, and the engine empties its slot. -/
def execReadyAppend (s : State) : Result :=
  .next <|
    match s.engine.link, s.engine.slot with
    | .readyAppend, some sl =>
      { s with
        commit := { s.commit with
          ready := s.commit.ready ++
            [{ header := sl.header, lane := sl.lane, condition := .waiting, commitFrame := 0, rowsStaged := 0 }] }
        engine := .reset }
    | _, _ => s

/-- The sets WAITING in the ready queue, in queue order (04 R85). -/
def CommitUnit.waitingSets (c : CommitUnit) : List SetId :=
  (c.ready.filter fun e => e.condition == .waiting).map fun e => ⟨e.lane, e.header.serial⟩

/-- 04 R89: the outcome write of the head entry begins if the entry is PUBLISHED and its boundary's publication is
over. -/
def CommitUnit.beginOutcome (c : CommitUnit) : CommitUnit :=
  match c.outcomeWork, c.ready with
  | .idle, e :: _ =>
    if e.condition = .published ∧ (c.inProgress = false ∨ e.commitFrame ≠ c.frame) then
      { c with outcomeWork := .writing }
    else c
  | _, _ => c

/-- 04 R88: whether the plan's mark mode gives a pulse at a boundary; with no plan copy it is taken as OFF (07 R127). -/
def State.marksBoundary (s : State) (published : Nat) : Bool :=
  match s.mode.plan with
  | none => false
  | some p =>
    match p.markMode with
    | .off => false
    | .commit => 0 < published
    | .every => true

/-- The publication report of the boundary in progress (04 R86). -/
def CommitUnit.report (c : CommitUnit) : PublicationReport :=
  { frame := c.frame, sets := c.published, changed := c.changed }

/-- 04 R86, R88: the release notice and the publication report are sent, the commit mark line pulses, boundary in
progress is cleared and the outcome writes begin. -/
def State.completePublication (s : State) : State :=
  let c := { s.commit with inProgress := false }
  let c := if s.marksBoundary s.commit.published then
      { c with markHigh := true, markEnd := s.now + Config.markPulseTime } else c
  { s with
    commit := c.beginOutcome
    mode := { s.mode with pubReports := s.mode.pubReports ++ [s.commit.report] }
    mail := { s.mail with
      releaseNotices := s.mail.releaseNotices ++ [s.commit.returned]
      scanReports := s.mail.scanReports ++ [s.commit.report] } }

/-- COMMIT_BOUNDARY (04 R85, R86): the WAITING entries are taken, to be published one claim after the other; with none
the notice and the report go at once. -/
def execCommitBoundary (s : State) : Result :=
  .next <|
    match s.mail.commitBoundary, s.commit.inProgress with
    | frame :: rest, false =>
      let t := { s with
        mail := { s.mail with commitBoundary := rest }
        commit := { s.commit with
          inProgress := true, take := s.commit.waitingSets, frame := frame, published := 0, returned := 0,
          changed := false } }
      if s.commit.waitingSets.isEmpty then t.completePublication else t
    | _, _ => s

/-- PUBLICATION_COMPLETE (04 R86). -/
def execPublicationComplete (s : State) : Result :=
  .next <|
    match s.commit.inProgress, s.commit.take with
    | true, [] => s.completePublication
    | _, _ => s

/-- COMMIT_MARK_END (09 R163): not before 2 microseconds of the pulse are over. -/
def execCommitMarkEnd (moment : Nat) (s : State) : Result :=
  .next <|
    if s.commit.markHigh = true ∧ s.commit.markEnd ≤ max s.now moment then
      { s with now := max s.now moment, commit := { s.commit with markHigh := false } }
    else s

/-- COMMITTED_OUTCOME_WRITE (04 R89, R90): the write of the head entry has ended, and the end is reported. -/
def execCommittedOutcomeWrite (bus : BusEvent) (s : State) : Result :=
  .next <|
    match s.commit.outcomeWork, s.commit.ready with
    | .writing, e :: _ =>
      let t := s.busWrite bus (e.header.address + 16#32) (outcomeBytes e.commitFrame .committed none e.rowsStaged)
      let report : EndReport :=
        { lane := e.lane, address := e.header.address, serial := e.header.serial, outcome := .committed,
          written := busClean bus }
      { t with
        commit := { t.commit with outcomeWork := .reported }
        mail := { t.mail with commitReport := some report } }
    | _, _ => s

/-- 04 R89, step 3: the Lane Service has taken the report; the head entry leaves, and the next outcome write begins. -/
def State.entryLeaves (s : State) : State :=
  { s with commit := { s.commit with outcomeWork := .idle, ready := s.commit.ready.drop 1 }.beginOutcome }

end Sys2Proof.Machine
end

