-- ==== Sys2Proof/Machine/FaultRecorder.lean ====
section
/-! DEFINITION. The Fault Recorder (Chapter 8): the request queue, the search of the fault table, the entry write,
recorder failures, and the clearing of table full. -/

namespace Sys2Proof.Machine

/-- The number of entries of the fault table (08 R150). -/
abbrev faultEntries : Nat := 16

/-- 08 R149, R150: with no request in hand the head of the queue is taken, and the search begins at the entry after the
search position with the exchange area base of that moment. While table full is set every request taken is discarded at
once and OVERFLOW set again, so the queue empties. -/
def State.takeFault (s : State) : State :=
  match s.recorder.inHand, s.recorder.queue with
  | none, f :: rest =>
    if s.recorder.tableFull then
      { s with
        recorder := { s.recorder with queue := [] }
        mail := { s.mail with
          flagRequests := s.mail.flagRequests ++ List.replicate (rest.length + 1) Flag.overflow } }
    else
      { s with recorder := { s.recorder with
          queue := rest, inHand := some f
          work := .searching s.port.exb ((s.recorder.position + 1) % faultEntries) 0 } }
  | _, _ => s

/-- The request in hand is dropped and the next taken. -/
def State.dropFault (s : State) : State :=
  { s with recorder := { s.recorder with inHand := none, work := .idle } }.takeFault

/-- 08 R153: a recorder failure. -/
def State.recorderFails (s : State) : State :=
  ({ s with mail := { s.mail with recorderFailures := s.mail.recorderFailures + 1 } }.askFlag .overflow).dropFault

/-- 08 R149: what the recorder stamps on a request. -/
def State.stamp (s : State) (r : FaultRequest) : StampedFault :=
  { request := r, part := s.mode.part, frame := r.frame.getD s.scan.frameCount }

/-- The capacity of the request queue (08 R148). -/
abbrev faultQueueCapacity : Nat := 8

/-- FAULT_REQUEST (08 R149): the sender's oldest request is stamped and queued, or discarded with OVERFLOW. -/
def execFaultRequest (sender : FaultSender) (s : State) : Result :=
  .next <|
    match takeFrom sender s.mail.faultRequests with
    | none => s
    | some (r, rest) =>
      let t := { s with mail := { s.mail with faultRequests := rest } }
      if s.recorder.queue.length < faultQueueCapacity then
        { t with recorder := { t.recorder with queue := t.recorder.queue ++ [s.stamp r] } }.takeFault
      else t.askFlag .overflow

/-- FAULT_SEARCH_READ (08 R150, R153, 10 R172): an EMPTY entry is then written; a FULL one sends the search on, or ends
it with no room after 16 entries; a bus error is a recorder failure. -/
def execFaultSearchRead (bus : BusEvent) (s : State) : Result :=
  .next <|
    match s.recorder.work with
    | .searching base entry examined =>
      let t := s.busRead bus
      match s.busData bus (faultEntryAddress base entry) 1 with
      | none => t.recorderFails
      | some bs =>
        if byteAt bs 0 = 0 then { t with recorder := { t.recorder with work := .writing base entry } }
        else if examined + 1 < faultEntries then
          { t with recorder := { t.recorder with work := .searching base ((entry + 1) % faultEntries) (examined + 1) } }
        else ({ t with recorder := { t.recorder with tableFull := true } }.askFlag .overflow).dropFault
    | _ => s

/-- FAULT_ENTRY_WRITE (08 R151, R153): the entry is in memory, the search position moves, FAULT is asked for. -/
def execFaultEntryWrite (bus : BusEvent) (s : State) : Result :=
  .next <|
    match s.recorder.work, s.recorder.inHand with
    | .writing base entry, some f =>
      let t := s.busWrite bus (faultEntryAddress base entry) (faultEntryBytes f)
      if busClean bus then ({ t with recorder := { t.recorder with position := entry } }.askFlag .fault).dropFault
      else t.recorderFails
    | _, _ => s

/-- OVERFLOW_CLEAR (08 R152). -/
def execOverflowClear (s : State) : Result :=
  .next <|
    match s.mail.overflowClears with
    | 0 => s
    | n + 1 =>
      { s with mail := { s.mail with overflowClears := n }, recorder := { s.recorder with tableFull := false } }

end Sys2Proof.Machine
end

