-- ==== Sys2Proof/Machine/GrantArbiter.lean ====
section
/-! DEFINITION. The Grant Arbiter (Chapter 6): candidates, selection, grants and their answers, aging; and the grant as
the Lane Service carries it out (05 R103). -/

namespace Sys2Proof.Machine

/-- 06 R118: the weight in use. -/
def LaneUnit.weightInUse (u : LaneUnit) : Nat :=
  if u.weight.toNat = 0 then 1 else if 15 < u.weight.toNat then 15 else u.weight.toNat

/-- 06 R119: a lane is a candidate when it is eligible and the part state is ACTIVE or HOLD. -/
def State.candidate (s : State) (l : Lane) : Bool := (s.lane l).eligible && s.mode.part.grants

/-- 06 R119: the order in which the lanes are examined, from the one after the ring position. -/
def ringOrder (ring : Lane) : List Lane := [ring + 1, ring + 2, ring + 3, ring]

/-- What the arbiter holds for a lane. -/
def State.arb (s : State) (l : Lane) : ArbiterLane := s.arbiter.lanes.get l

/-- 06 R120: the upper class is every URGENT lane and every promoted NORMAL lane. -/
def State.upperClass (s : State) (l : Lane) : Bool := (s.lane l).laneClass == .urgent || (s.arb l).promoted

/-- How a selection came out (06 R120): the lane, whether it spends credit (chosen in step 2 or 3), and whether a new
round began. -/
structure Selection where
  lane     : Lane
  spends   : Bool
  newRound : Bool
  deriving DecidableEq, Repr

/-- 06 R120: the three steps of a selection. In a new round every lane has credit, so the first candidate in ring
order is chosen. -/
def State.select (s : State) : Option Selection :=
  let order := ringOrder s.arbiter.ring
  match order.find? fun l => s.candidate l && s.upperClass l with
  | some l => some ⟨l, false, false⟩
  | none =>
    match order.find? fun l => s.candidate l && 0 < (s.arb l).credit with
    | some l => some ⟨l, true, false⟩
    | none =>
      match order.find? s.candidate with
      | some l => some ⟨l, true, true⟩
      | none => none

/-- 06 R120: a new round sets every lane's credit to its weight in use. -/
def State.newRound (s : State) : State :=
  { s with arbiter := { s.arbiter with
      lanes := .ofFn fun l => { s.arb l with credit := (s.lane l).weightInUse } } }

/-- 06 R120, R121: with the engine's request waiting and no grant outstanding, a selection is made if there is a
candidate, and the grant is sent to the Lane Service. -/
def State.trySelect (s : State) : State :=
  if s.arbiter.requestWaiting ∧ s.arbiter.grant = .none then
    match s.select with
    | none => s
    | some sel =>
      let t := if sel.newRound then s.newRound else s
      { t with arbiter := { t.arbiter with grant := .sent sel.lane sel.spends } }
  else s

/-- 03 R51: the engine's request is withdrawn when the part state leaves ACTIVE or HOLD. -/
def State.withdrawRequest (s : State) : State := { s with arbiter := { s.arbiter with requestWaiting := false } }

/-- 06 R117: the start notice. -/
def State.startNotice (s : State) : State :=
  { s with arbiter :=
      { lanes := .ofFn fun l => { credit := (s.lane l).weightInUse, wait := 0, promoted := false, granted := false }
        ring := 3, grant := .none, requestWaiting := s.arbiter.requestWaiting } }

/-- GRANT_REQUEST (03 R51, 06 R120): the IDLE engine asks for a grant in ACTIVE or HOLD. -/
def execGrantRequest (s : State) : Result :=
  .next <|
    if s.engine.state = .idle ∧ s.mode.part.grants ∧ s.arbiter.requestWaiting = false then
      { s with arbiter := { s.arbiter with requestWaiting := true } }.trySelect
    else s

/-- ELIGIBILITY_REPORT (06 R120): the arbiter checks for a selection. -/
def execEligibilityReport (s : State) : Result :=
  .next <|
    match s.mail.eligible with
    | [] => s
    | _ :: rest => { s with mail := { s.mail with eligible := rest } }.trySelect

/-- GRANT (05 R103, 06 R121, 03 R51): the Lane Service moves the intake head into the engine and sets the flight note,
or refuses. It takes the grant when no other event is in its hands (log 13), the engine being IDLE (log 23). -/
def execGrant (s : State) : Result :=
  .next <|
    match s.arbiter.grant, s.lanes.agenda, s.engine.state with
    | .sent l spends, [], .idle =>
      match s.candidate l, (s.lane l).intake with
      | true, e :: rest =>
        let t := s.setLane l { s.lane l with intake := rest, flight := some ⟨e.header.serial, e.header.notify⟩ }
        { t with
          engine :=
            { state := .applying
              slot := some { lane := l, header := e.header, fetchedFrame := e.commitFrame, opIndex := 0, op := none,
                             progress := .none, named := [], abortCause := none, final := none }
              link := .trailerStart, completionsOwed := 0 }
          arbiter := { t.arbiter with grant := .answered l spends true, requestWaiting := false } }
      | _, _ => { s with arbiter := { s.arbiter with grant := .answered l spends false } }
    | _, _, _ => s

/-- GRANT_ANSWER (06 R121, R122): on *taken* the lane's values are updated; on *refused* the arbiter checks again. -/
def execGrantAnswer (s : State) : Result :=
  .next <|
    match s.arbiter.grant with
    | .answered l spends true =>
      { s with arbiter := { s.arbiter with
          grant := .none
          ring := l
          lanes := s.arbiter.lanes.set l
            { credit := if spends then (s.arb l).credit - 1 else (s.arb l).credit, wait := 0, promoted := false,
              granted := true } } }
    | .answered _ _ false => { s with arbiter := { s.arbiter with grant := .none } }.trySelect
    | _ => s

/-- 06 R123, R124: the aging of one lane at a boundary; the granted-in-period flag is cleared afterwards. -/
def ArbiterLane.age (a : ArbiterLane) (candidate : Bool) (relax : Nat) : ArbiterLane :=
  if candidate && !a.granted then
    let w := if a.wait < 255 then a.wait + 1 else a.wait
    { a with wait := w, promoted := a.promoted || (relax != 0 && relax ≤ w), granted := false }
  else { a with granted := false }

/-- ARBITER_BOUNDARY (06 R124). -/
def execArbiterBoundary (s : State) : Result :=
  .next <|
    match s.mail.arbiterBoundary with
    | [] => s
    | _ :: rest =>
      { s with
        mail := { s.mail with arbiterBoundary := rest }
        arbiter := { s.arbiter with
          lanes := .ofFn fun l => (s.arb l).age (s.candidate l) (s.lane l).relax.toNat } }

end Sys2Proof.Machine
end

