-- ==== Sys2Proof/Machine/LaneService.lean ====
section
/-! DEFINITION. The Lane Service (Chapter 5): setup, boundary work, the chain, endings, releases, requests, fault halts
and stop notices. Each event is taken whole: what it leaves to do, bus writes among it, stands on the agenda (log 13). -/

namespace Sys2Proof.Machine

/-! ## Marking, ending and halting -/

/-- 05 R102: a mark is given to the ordinary entries alone. -/
def markOrdinary (m : EntryMark) (es : List IntakeEntry) : List IntakeEntry :=
  es.map fun e => if e.mark = .ordinary then { e with mark := m } else e

/-- 05 R104: a marked entry at the head ends when the flight note is clear. -/
def LaneUnit.ready (u : LaneUnit) : Bool :=
  u.flight.isNone &&
    match u.intake with
    | e :: _ => e.mark != .ordinary
    | [] => false

/-- 05 R104: the steps that end the intake head, or nothing if it is not ready to end. -/
def State.endTasks (s : State) (l : Lane) : List LaneTask :=
  if (s.lane l).ready then
    [.writeEntryOutcome l, .writeEntryReleased l, .notifyEntry l, .removeEntry l, .endEntries l]
  else []

/-- Where the boundary's work on the lane in hand stands. -/
def State.setPhase (s : State) (p : PollPhase) : State :=
  { s with lanes := { s.lanes with job := s.lanes.job.map fun j => { j with phase := p } } }

/-- 05 R110, step 6: the poll of a halted lane ends. A request step whose read is outstanding goes on. -/
def State.endPollOf (s : State) (l : Lane) : State :=
  match s.lanes.job with
  | some j => if j.lane = l ∧ j.phase ≠ .recordRead then s.setPhase .ended else s
  | none => s

/-- 05 R108, R110 steps 4 and 5: the ordinary entries are marked DROPPED, the abort request goes out, and the lane is
DRAINING toward a target. The state changes before the endings' writes (log 14). -/
def State.beginDraining (s : State) (l : Lane) (target : DrainTarget) : State :=
  let t := s.setLane l { s.lane l with
    intake := markOrdinary .dropped (s.lane l).intake
    abortsOutstanding := (s.lane l).abortsOutstanding + 1
    drainTarget := target
    state := .draining }
  { t with mail := { t.mail with abortLanes := t.mail.abortLanes ++ [l] } }

/-- 05 R110, 08 R147: the request of a fault halt. -/
def haltRequest (l : Lane) (cause : FaultCode) (address : Word) (serial : Half) : FaultRequest :=
  { code := cause, lane := some l, address := some address, serial := some serial, row := none, line := none,
    frame := none }

/-- 05 R110, R111, R106: a fault halt cause met by a lane, in each of its states. -/
def State.haltLane (s : State) (l : Lane) (cause : FaultCode) (address : Word) (serial : Half) : State :=
  match (s.lane l).state with
  | .running =>
    let t := (s.askFault .laneService (haltRequest l cause address serial)).askFlag .lane
    ((t.setLane l { t.lane l with haltReason := cause.haltReason }).beginDraining l .halted).endPollOf l
  | .draining =>
    let t := (s.askFault .laneService (haltRequest l cause address serial)).askFlag .lane
    t.setLane l { t.lane l with
      drainTarget := .halted
      haltReason := if (t.lane l).haltReason = .none then cause.haltReason else (t.lane l).haltReason }
  | .halted | .off => s

/-- 05 R110 steps 4 and 5: what a fault halt leaves to do, for a lane that was RUNNING. `ending` is whether an entry of
the lane is ending already; the entries after it end in their turn (R104). -/
def State.haltTasks (s : State) (ending : Bool) (l : Lane) (cause : FaultCode) (address : Word) (serial : Half) :
    List LaneTask :=
  if (s.lane l).state = .running then
    (if ending then [] else (s.haltLane l cause address serial).endTasks l) ++ [.writeState l]
  else []

/-! ## Following the chain (05 R98, R99) -/

/-- The expected serial, or 0 if none (05 R97, R99). -/
def LaneUnit.expectedOrZero (u : LaneUnit) : Half := u.expected.getD 0

/-- The state after a link is followed: 0 ends the poll, a misaligned one halts the lane, any other names a header. -/
def State.followLink (s : State) (l : Lane) (link : Word) : State :=
  if link = 0 then s.setPhase .ended
  else if link % 16 = 0 then s.setPhase (.headerRead link)
  else s.haltLane l .chainMisaligned link (s.lane l).expectedOrZero

/-- What following a link leaves to do. -/
def State.followTasks (s : State) (l : Lane) (link : Word) : List LaneTask :=
  if link % 16 = 0 then [] else s.haltTasks false l .chainMisaligned link (s.lane l).expectedOrZero

/-- The link the lane follows without a bus read, if its poll goes on and it is anchored at its record (05 R98). -/
def State.pollsRecord (s : State) (l : Lane) : Bool :=
  (s.lane l).state == .running && (s.lane l).intake.length < 2 && (s.lane l).anchor.isNone

/-- Whether the boundary's work stands between a lane's reads. -/
def State.pollActing (s : State) (l : Lane) : Bool :=
  match s.lanes.job with
  | some j => j.lane == l && j.phase == .acting
  | none => false

/-- 05 R112: whether a stop notice has come during the boundary's work. -/
def State.stopNoted (s : State) : Bool :=
  match s.lanes.job with
  | some j => j.stopNoted
  | none => false

/-- 05 R98: the poll begins or goes on, until a link is 0, the intake has no room or a stop notice has come (R112). The
number of fetches is not limited besides: R98 says 0, 1 or 2, but an entry that ends within the poll (R104) or a grant
(R103) makes room again; DESIGN CHOICE (log 40). -/
def State.poll (s : State) (l : Lane) (headLink : Word) : State :=
  if s.pollActing l then
    if s.stopNoted then s.setPhase .ended
    else if s.pollsRecord l then s.followLink l headLink
    else if (s.lane l).state = .running ∧ (s.lane l).intake.length < 2 then s.setPhase .linkRead
    else s.setPhase .ended
  else s

/-- What the poll leaves to do. -/
def State.pollTasks (s : State) (l : Lane) (headLink : Word) : List LaneTask :=
  if s.pollActing l && !s.stopNoted && s.pollsRecord l then s.followTasks l headLink else []

/-! ## The agenda -/

/-- 05 R104, R105: NOTIFY if the set asked for it. -/
def State.notifyIf (s : State) (asked : Bool) : State := if asked then s.askFlag .notify else s

/-- Whether the notify flag of the intake head is set. -/
def LaneUnit.headNotifies (u : LaneUnit) : Bool :=
  match u.intake with
  | e :: _ => e.header.notify
  | [] => false

/-- Whether the notify flag in the flight note is set. -/
def LaneUnit.flightNotifies (u : LaneUnit) : Bool :=
  match u.flight with
  | some f => f.notify
  | none => false

/-- 05 R95: the lane whose record is read next, or the setup complete report. -/
def State.nextSetup (s : State) (l : Lane) : State :=
  match nextLane l with
  | some n => { s with lanes := { s.lanes with setup := some n } }
  | none => { s with lanes := { s.lanes with setup := none }, mail := { s.mail with setupComplete := true } }

/-- What a task that is no bus write does. -/
def State.perform (s : State) : LaneTask → State
  | .notifyEntry l => s.notifyIf (s.lane l).headNotifies
  | .removeEntry l => s.setLane l { s.lane l with intake := (s.lane l).intake.drop 1 }
  | .notifyFlight l => s.notifyIf (s.lane l).flightNotifies
  | .outcomeHalt l address serial => s.haltLane l .outcomeWrite address serial
  | .clearFlight l => s.setLane l { s.lane l with flight := none }
  | .reportEligible l =>
    if (s.lane l).eligible then { s with mail := { s.mail with eligible := s.mail.eligible ++ [l] } } else s
  | .reportTaken => s.entryLeaves
  | .startPoll l headLink => s.poll l headLink
  | .continuePoll l => s.poll l 0
  | .nextSetup l => s.nextSetup l
  | .endEntries _ | .writeState _ | .writeAnchorZero _ | .writeAnchor _ | .writeHead _ _ | .writeAck _ _ _
  | .writeReleased _ _ _ | .writeEntryOutcome _ | .writeEntryReleased _ => s

/-- What such a task adds to the agenda; it is nothing, or begins with a bus write. -/
def State.follows (s : State) : LaneTask → List LaneTask
  | .endEntries l => s.endTasks l
  | .outcomeHalt l address serial => s.haltTasks false l .outcomeWrite address serial
  | .startPoll l headLink => s.pollTasks l headLink
  | .continuePoll l => s.pollTasks l 0
  | .notifyEntry _ | .removeEntry _ | .notifyFlight _ | .clearFlight _ | .reportEligible _ | .reportTaken
  | .nextSetup _ | .writeState _ | .writeAnchorZero _ | .writeAnchor _ | .writeHead _ _ | .writeAck _ _ _
  | .writeReleased _ _ _ | .writeEntryOutcome _ | .writeEntryReleased _ => []

/-- Which tasks are bus writes. -/
def LaneTask.isWrite : LaneTask → Bool
  | .writeState _ | .writeAnchorZero _ | .writeAnchor _ | .writeHead _ _ | .writeAck _ _ _ | .writeReleased _ _ _
  | .writeEntryOutcome _ | .writeEntryReleased _ => true
  | .notifyEntry _ | .removeEntry _ | .endEntries _ | .notifyFlight _ | .outcomeHalt _ _ _ | .clearFlight _
  | .reportEligible _ | .reportTaken | .startPoll _ _ | .continuePoll _ | .nextSetup _ => false

/-- Set the agenda. -/
def State.setAgenda (s : State) (ts : List LaneTask) : State := { s with lanes := { s.lanes with agenda := ts } }

/-- 05 R112: one lane's ordinary entries are marked STOPPED. -/
def LaneUnit.stop (u : LaneUnit) : LaneUnit := { u with intake := markOrdinary .stopped u.intake }

/-- 05 R112: every ordinary entry of every lane is marked STOPPED, and those free to end are ended: all of lane 0 first,
then lanes 1, 2 and 3, an order the spec leaves open between lanes; DESIGN CHOICE (log 45). -/
def State.stopAll (s : State) : State :=
  let t := { s with lanes := { s.lanes with lanes := .ofFn fun l => (s.lane l).stop } }
  t.setAgenda (allLanes.flatMap t.endTasks)

/-- 05 R96: the boundary's work is over: the poll report goes out. -/
def State.endJob (s : State) (j : BoundaryJob) : State :=
  { s with
    lanes := { s.lanes with job := none }
    mail := { s.mail with pollReports := s.mail.pollReports ++ [⟨j.appended, j.ticketTaken⟩] } }

/-- With nothing left on the agenda: a lane whose work has ended gives way to the next (05 R96), or, after a stop
notice, to the marking of every lane (R112). -/
def State.settle (s : State) : State :=
  match s.lanes.job with
  | some j =>
    if j.phase = .ended then
      if j.stopNoted then (s.endJob j).stopAll
      else match nextLane j.lane with
        | some n => { s with lanes := { s.lanes with job := some { j with lane := n, phase := .recordRead } } }
        | none => s.endJob j
    else s
  | none => s

/-- Work through the agenda up to the next bus write. -/
def State.work : List LaneTask → State → State
  | [], s => (s.setAgenda []).settle
  | t :: rest, s =>
    if t.isWrite then s.setAgenda (t :: rest)
    else if (s.follows t).isEmpty then State.work rest (s.perform t)
    else (s.perform t).setAgenda (s.follows t ++ rest)

/-! ## Bus writes -/

/-- The lane a write of the agenda is made for, and the set its fault entry names, or 0 and 0 (05 R101, R105, 08 R147). -/
def LaneTask.concerns (s : State) : LaneTask → Lane × Word × Half
  | .writeState l | .writeAnchorZero l | .writeHead l _ | .writeAck l _ _ => (l, 0, 0)
  | .writeAnchor l => (l, (s.lane l).anchor.getD 0, (s.lane l).expectedOrZero - 1)
  | .writeReleased l serial address => (l, address, serial)
  | .writeEntryOutcome l | .writeEntryReleased l =>
    match (s.lane l).intake with
    | e :: _ => (l, e.header.address, e.header.serial)
    | [] => (l, 0, 0)
  | .notifyEntry l | .removeEntry l | .endEntries l | .notifyFlight l | .outcomeHalt l _ _ | .clearFlight l
  | .reportEligible l | .startPoll l _ | .continuePoll l | .nextSetup l => (l, 0, 0)
  | .reportTaken => (0, 0, 0)

/-- Whether a write belongs to the ending of an intake entry (05 R104). -/
def LaneTask.inEnding : LaneTask → Bool
  | .writeEntryOutcome _ | .writeEntryReleased _ => true
  | .writeState _ | .writeAnchorZero _ | .writeAnchor _ | .writeHead _ _ | .writeAck _ _ _ | .writeReleased _ _ _
  | .notifyEntry _ | .removeEntry _ | .endEntries _ | .notifyFlight _ | .outcomeHalt _ _ _ | .clearFlight _
  | .reportEligible _ | .reportTaken | .startPoll _ _ | .continuePoll _ | .nextSetup _ => false

/-- LANE_RECORD_WRITE (05 R106): the write at the head of the agenda has ended; a bus error halts the lane with
OUTCOME_WRITE, and the remaining steps are carried out all the same. What the halt has to write stands before them: so
the DRAINING state of a lane halted by a write of its RESUME is written before the RESUME's remaining writes and its
acknowledgement, whose order R107 leaves open; DESIGN CHOICE (log 41). -/
def execLaneRecordWrite (bus : BusEvent) (s : State) : Result :=
  .next <|
    match s.lanes.agenda with
    | [] => s
    | t :: rest =>
      match t.busWrite s with
      | none => s
      | some (a, bs) =>
        let u := s.busWrite bus a bs
        if busClean bus then State.work rest u
        else
          let c := t.concerns s
          State.work (u.haltTasks t.inEnding c.1 .outcomeWrite c.2.1 c.2.2 ++ rest)
            (u.haltLane c.1 .outcomeWrite c.2.1 c.2.2)

/-! ## Setup at START -/

/-- 05 R95: the lane after its record has been read. -/
def LaneUnit.setUp (u : LaneUnit) (r : LaneRecord) : LaneUnit :=
  { u with
    enable := r.enable, laneClass := r.laneClass, weight := r.weight, relax := r.relax,
    lastTicket := some r.ackTicket, anchor := none, expected := none, haltReason := .none, drainTarget := .running,
    abortsOutstanding := 0, ackOwed := false, state := if r.enable then .running else .off }

/-- 05 R95: the lane after the read of its record has failed. It is HALTED, so it waits for no abort and owes no
acknowledgement (R93, R109): these start afresh here too, as after a read that succeeds (log 31). -/
def LaneUnit.setUpFailed (u : LaneUnit) : LaneUnit :=
  { u with
    enable := false, laneClass := .normal, weight := 0, relax := 0, lastTicket := none, haltReason := .linkFault,
    drainTarget := .running, abortsOutstanding := 0, ackOwed := false, state := .halted }

/-- LANE_SETUP (05 R95): the record of the lane being set up has been read, or could not be. -/
def execLaneSetup (bus : BusEvent) (s : State) : Result :=
  .next <|
    match s.lanes.setup, s.lanes.agenda with
    | some l, [] =>
      let t := s.busRead bus
      match s.busData bus (s.laneRecord l) 32 with
      | some bs =>
        State.work [.writeState l, .writeAnchorZero l, .nextSetup l] (t.setLane l ((t.lane l).setUp (laneRecordOf bs)))
      | none =>
        State.work [.writeState l, .nextSetup l]
          ((t.setLane l (t.lane l).setUpFailed).askFault .laneService (haltRequest l .linkFault 0 0) |>.askFlag .lane)
    | _, _ => s

/-! ## The work of a boundary -/

/-- LANE_BOUNDARY (05 R96): in ACTIVE or HOLD the work on lane 0 begins; otherwise the poll report goes out alone. -/
def execLaneBoundary (s : State) : Result :=
  .next <|
    match s.mail.laneBoundary, s.lanes.job, s.lanes.agenda, s.lanes.setup with
    | _ :: rest, none, [], none =>
      let t := { s with mail := { s.mail with laneBoundary := rest } }
      if s.mode.part.grants then
        { t with lanes := { t.lanes with
            job := some { lane := 0, phase := .recordRead, appended := false, ticketTaken := false,
                          stopNoted := false } } }
      else { t with mail := { t.mail with pollReports := t.mail.pollReports ++ [⟨false, false⟩] } }
    | _, _, _, _ => s

/-- 05 R97 to R109: the request a lane record carries, and what acting on it leaves to do. -/
def State.actOnRequest (s : State) (l : Lane) (r : LaneRecord) : State × List LaneTask :=
  let done : LaneTask := .writeAck l r.ticket true
  let refused : LaneTask := .writeAck l r.ticket false
  let drain (target : DrainTarget) : State × List LaneTask :=
    let t := (s.setLane l { s.lane l with ackOwed := true }).beginDraining l target
    (t, t.endTasks l ++ [.writeState l, .startPoll l r.headLink])
  let poll : LaneTask := .startPoll l r.headLink
  match (s.lane l).state, r.code.toNat with
  | .off, _ => (s, [refused, poll])
  | _, 0 => (s, [done, poll])
  | .halted, 1 =>
    (s.setLane l { s.lane l with anchor := none, expected := none, haltReason := .none, state := .running },
      [.writeState l, .writeAnchorZero l, .writeHead l r.requestHead, done, .startPoll l r.requestHead])
  | .running, 2 => drain .running
  | .running, 3 => drain .halted
  | .halted, 2 => (s, [done, poll])
  | .halted, 3 => (s, [done, poll])
  | _, _ => (s, [refused, poll])

/-- 05 R97: a new ticket is taken. -/
def State.takeTicket (s : State) (l : Lane) (ticket : Byte) : State :=
  let t := s.setLane l { s.lane l with lastTicket := some ticket }
  { t with lanes := { t.lanes with job := t.lanes.job.map fun j => { j with ticketTaken := true } } }

/-- 05 R97: the request step on a record that has been read. -/
def State.requestStep (s : State) (l : Lane) (r : LaneRecord) : State :=
  if (s.lane l).lastTicket = some r.ticket then State.work [.startPoll l r.headLink] s
  else
    let a := (s.takeTicket l r.ticket).actOnRequest l r
    State.work a.2 a.1

/-- LANE_REQUEST_READ (05 R97): the lane record of the request step has been read, or could not be. A RESUME takes its
request head link from this read and makes no further one, though R170 counts a read *in the same step when a RESUME
takes the request head link* beside it; DEDUCED (log 44). A stop notice that has come meanwhile leaves the request step
as it is, and ends the poll (R112, log 15). -/
def execLaneRequestRead (bus : BusEvent) (s : State) : Result :=
  .next <|
    match s.lanes.job, s.lanes.agenda with
    | some j, [] =>
      if j.phase = .recordRead then
        let t := s.busRead bus
        if (s.lane j.lane).state = .draining then State.work [] (t.setPhase .ended)
        else match s.busData bus (s.laneRecord j.lane) 32 with
          | some bs => (t.setPhase .acting).requestStep j.lane (laneRecordOf bs)
          | none =>
            let u := t.setPhase .ended
            State.work (u.haltTasks false j.lane .linkFault 0 (u.lane j.lane).expectedOrZero)
              (if (u.lane j.lane).state = .running then u.haltLane j.lane .linkFault 0 (u.lane j.lane).expectedOrZero
               else u)
      else s
    | _, _ => s

/-- NEXT_LINK_READ (05 R98, R113): the next link of the anchor set has been read, or could not be. After a stop notice
a link that was read is not followed: the poll ends (R112, log 15). -/
def execNextLinkRead (bus : BusEvent) (s : State) : Result :=
  .next <|
    match s.lanes.job, s.lanes.agenda with
    | some j, [] =>
      if j.phase = .linkRead then
        let t := s.busRead bus
        let anchor := (s.lane j.lane).anchor.getD 0
        match s.busData bus anchor 4 with
        | some bs =>
          if j.stopNoted then State.work [] (t.setPhase .ended)
          else State.work (t.followTasks j.lane (wordAt bs 0)) (t.followLink j.lane (wordAt bs 0))
        | none =>
          State.work (t.haltTasks false j.lane .linkFault anchor ((t.lane j.lane).expectedOrZero - 1))
            (t.haltLane j.lane .linkFault anchor ((t.lane j.lane).expectedOrZero - 1))
      else s
    | _, _ => s

/-- 05 R101, R112: the mark a fetched set is appended with. -/
def fetchMark (h : HeaderCopy) (l : Lane) (stopNoted : Bool) : EntryMark :=
  if h.malformed l then .malformed else if stopNoted then .stopped else .ordinary

/-- 05 R101: a set is appended and the chain advances. -/
def State.fetch (s : State) (j : BoundaryJob) (h : HeaderCopy) (frame : Word) : State :=
  let u := s.lane j.lane
  let t := s.setLane j.lane { u with
    intake := u.intake ++ [{ header := h, commitFrame := frame, mark := fetchMark h j.lane j.stopNoted }]
    anchor := some h.address
    expected := some (h.serial + 1) }
  { t with lanes := { t.lanes with
      job := some { j with appended := true, phase := if j.stopNoted then .ended else .acting } } }

/-- 05 R101, R104, R120: what a fetch leaves to do. The arbiter hears of an ordinary entry that joins an empty
intake. -/
def fetchTasks (l : Lane) (wasEmpty : Bool) (mark : EntryMark) : List LaneTask :=
  [.writeAnchor l, .endEntries l] ++ (if wasEmpty && mark == .ordinary then [.reportEligible l] else []) ++
    [.continuePoll l]

/-- HEADER_READ (05 R99 to R101): the header of a linked set has been read and is checked, or could not be read. -/
def execHeaderRead (bus : BusEvent) (s : State) : Result :=
  .next <|
    match s.lanes.job, s.lanes.agenda with
    | some j, [] =>
      match j.phase with
      | .headerRead link =>
        let t := s.busRead bus
        let u := t.lane j.lane
        match s.busData bus link 32 with
        | none =>
          State.work (t.haltTasks false j.lane .linkFault link u.expectedOrZero)
            (t.haltLane j.lane .linkFault link u.expectedOrZero)
        | some bs =>
          let h := headerOf link bs
          if u.expected = none ∨ u.expected = some h.serial then
            State.work (fetchTasks j.lane u.intake.isEmpty (fetchMark h j.lane j.stopNoted)) (t.fetch j h (headerFrame bs))
          else
            State.work (t.haltTasks false j.lane .sequence link h.serial) (t.haltLane j.lane .sequence link h.serial)
      | .recordRead | .linkRead | .acting | .ended => s
    | _, _ => s

/-! ## Ends, completions and stops -/

/-- 05 R105: the steps of taking an end report; `taken` is what tells the reporter that it has been taken. -/
def releaseTasks (r : EndReport) (taken : List LaneTask) : List LaneTask :=
  [.writeReleased r.lane r.serial r.address, .notifyFlight r.lane] ++
    (if r.written then [] else [.outcomeHalt r.lane r.address r.serial]) ++
    [.clearFlight r.lane, .endEntries r.lane] ++ taken ++ [.reportEligible r.lane]

/-- END_REPORT (05 R105, 04 R89): the end report of the engine or of the Commit Unit is taken. -/
def execEndReport (reporter : EndReporter) (s : State) : Result :=
  .next <|
    match reporter, s.lanes.agenda with
    | .engine, [] =>
      match s.mail.engineReports with
      | .ended r :: rest =>
        State.work (releaseTasks r []) { s with mail := { s.mail with engineReports := rest } }
      | _ => s
    | .commitUnit, [] =>
      match s.mail.commitReport with
      | some r => State.work (releaseTasks r [.reportTaken]) { s with mail := { s.mail with commitReport := none } }
      | none => s
    | _, _ => s

/-- 05 R109, step 1: the lane at the end of its draining; the acknowledgement owed is cleared as it is written. -/
def LaneUnit.drained (u : LaneUnit) : LaneUnit :=
  { u with
    drainTarget := .running
    ackOwed := false
    state := match u.drainTarget with
      | .running => .running
      | .halted => .halted
    haltReason := match u.drainTarget with
      | .running => u.haltReason
      | .halted => if u.haltReason = .none then .halt else u.haltReason }

/-- 05 R109: what the end of draining leaves to do: the lane state, and the acknowledgement of the request that began
it. -/
def drainedTasks (l : Lane) (u : LaneUnit) : List LaneTask :=
  .writeState l :: if u.ackOwed then [.writeAck l (u.lastTicket.getD 0) true] else []

/-- COMPLETION_REPORT (05 R109): aborts outstanding falls by one, and at 0 the draining ends. -/
def execCompletionReport (s : State) : Result :=
  .next <|
    match s.mail.engineReports, s.lanes.agenda with
    | .completion l :: rest, [] =>
      let u := { s.lane l with abortsOutstanding := (s.lane l).abortsOutstanding - 1 }
      let t := { s with mail := { s.mail with engineReports := rest } }
      if u.abortsOutstanding = 0 ∧ u.state = .draining then State.work (drainedTasks l u) (t.setLane l u.drained)
      else t.setLane l u
    | _, _ => s

/-- STOP_NOTICE (05 R112): every lane's ordinary entries are marked STOPPED, at once or when the read outstanding has
ended. -/
def execStopNotice (s : State) : Result :=
  .next <|
    if s.mail.stopNotice then
      match s.lanes.job, s.lanes.agenda with
      | none, [] => { s with mail := { s.mail with stopNotice := false } }.stopAll
      | some j, [] =>
        { s with
          mail := { s.mail with stopNotice := false }
          lanes := { s.lanes with job := some { j with stopNoted := true } } }
      | _, _ => s
    else s

/-- POLL_REPORT (05 R96, 07 R134): the poll report reaches the Mode Controller. -/
def execPollReport (s : State) : Result :=
  .next <|
    match s.mail.pollReports with
    | [] => s
    | r :: rest =>
      { s with
        mail := { s.mail with pollReports := rest }
        mode := { s.mode with pollReports := s.mode.pollReports ++ [r] } }

end Sys2Proof.Machine
end

