-- ==== Sys2Proof/Machine/ModeController.lean ====
section
/-! DEFINITION. The Mode Controller (Chapter 7): START and the plan, STOP, SLEEP and WAKE as it takes them, the steps of
STARTING, HOLD, the waits of SLEEPING and STOPPING, the panel ramps, and fault reports. -/

namespace Sys2Proof.Machine

/-! ## Shared steps -/

/-- 07 R132: the result of the command in hand is under way to the Register Port. -/
def State.giveResult (s : State) (r : CommandResult) : State := s.setMode { s.mode with command := .answered r }

/-- 07 R136: the part returns to ACTIVE from HOLD. -/
def State.returnToActive (s : State) : State :=
  (s.setMode { s.mode with part := .active, idleCount := 0 }).order .frameCadence

/-- 07 R139, R141: the stop notice to the Lane Service and the abort request for STOP to the engine. -/
def State.sendStop (s : State) : State := { s with mail := { s.mail with stopNotice := true, abortStop := true } }

/-- 07 R139: the part enters STOPPING. -/
def State.enterStopping (s : State) : State :=
  (s.setMode { s.mode with
    part := .stopping, stopRecorded := false, faultHeld := false, finishSent := false }).sendStop.withdrawRequest

/-- 07 R143: the part enters FAULTED. -/
def State.enterFaulted (s : State) : State := (s.setMode { s.mode with part := .faulted }).withdrawRequest

/-! ## The part commands as the Mode Controller takes them (07 R132) -/

/-- START (07 R129): the damage count, then the exchange base, then the plan read begins. -/
def State.takeStart (s : State) : State :=
  if s.mode.part ≠ .off then s.giveResult .refusedState
  else if Config.damageLimit < s.store.markedCount then s.giveResult .refusedState
  else if s.port.exb = 0 ∨ s.port.exb % 64 ≠ 0 then s.giveResult .refusedBase
  else s.setMode { s.mode with command := .planRead }

/-- STOP (07 R132, R139, R141). -/
def State.takeStop (s : State) : State :=
  match s.mode.part with
  | .off | .stopping => s.giveResult .refusedState
  | .starting | .sleeping | .waking => (s.setMode { s.mode with stopRecorded := true }).giveResult .ok
  | .active | .hold | .faulted => s.enterStopping.giveResult .ok
  | .sleep => (s.setMode { s.mode with endingsAwaited := true, command := .endings }).sendStop

/-- SLEEP (07 R132, R137). -/
def State.takeSleep (s : State) : State :=
  match s.mode.part with
  | .active => ((s.setMode { s.mode with part := .sleeping }).withdrawRequest).giveResult .ok
  | .hold => (((s.setMode { s.mode with part := .sleeping }).withdrawRequest).order .frameCadence).giveResult .ok
  | .sleep => s.giveResult .ok
  | .off | .starting | .sleeping | .waking | .stopping | .faulted => s.giveResult .refusedState

/-- WAKE (07 R132, R136, R138). -/
def State.takeWake (s : State) : State :=
  match s.mode.part with
  | .active => s.giveResult .ok
  | .hold => (s.returnToActive.askFlag .done).giveResult .ok
  | .sleep => ((s.setMode { s.mode with part := .waking }).rampUp).giveResult .ok
  | .off | .starting | .sleeping | .waking | .stopping | .faulted => s.giveResult .refusedState

/-- A command handed to the Mode Controller, taken. -/
def State.takeCommand (s : State) : PartCommand → State
  | .start => s.takeStart
  | .stop => s.takeStop
  | .sleep => s.takeSleep
  | .wake => s.takeWake

/-- 07 R131, step 1: the plan is accepted, and the part enters STARTING with the fill of line 0, or without it if the
live map has been published into (01 R18). -/
def State.acceptPlan (s : State) (p : Plan) : State :=
  (s.setMode { s.mode with
    plan := some p, part := .starting, startup := if s.map.fresh then .fillAsked else .fillDone }).giveResult .ok

/-- PLAN_READ (07 R129, R130): the plan read of a START has ended. -/
def execPlanRead (bus : BusEvent) (s : State) : Result :=
  .next <|
    match s.mode.command with
    | .planRead =>
      let t := s.busRead bus
      match s.busData bus s.port.exb 64 with
      | none => t.giveResult .planInvalid
      | some bs =>
        match planOf bs with
        | none => t.giveResult .planInvalid
        | some p => t.acceptPlan p
    | _ => s

/-! ## STARTING -/

/-- STARTING_LINE_FILL (07 R131, step 2): the fill has ended or was skipped, and the lane setup is asked for. -/
def execStartingLineFill (s : State) : Result :=
  .next <|
    match s.mode.startup with
    | .fillDone =>
      { s with
        mode := { s.mode with startup := .lanesAsked }
        lanes := { s.lanes with setup := some 0 } }
    | _ => s

/-- SETUP_COMPLETE (07 R131, steps 3 and 4): the start notice, then the ramp up. -/
def execSetupComplete (s : State) : Result :=
  .next <|
    if s.mail.setupComplete ∧ s.mode.startup = .lanesAsked then
      let t := { s with mail := { s.mail with setupComplete := false } }.startNotice
      (t.setMode { t.mode with startup := .ramp }).rampUp
    else s

/-! ## The ends of the ramps -/

/-- 07 R131, R138: the order that begins scanning, a blank frame first after WAKING. -/
def PartState.beginOrder : PartState → ScanOrder
  | .waking => .beginBlank
  | _ => .begin

/-- RAMP_UP_END (07 R131 step 5, R138, R144). -/
def execRampUpEnd (moment : Nat) (s : State) : Result :=
  .next <|
    if s.mode.panel = .rising ∧ s.mode.rampEnd ≤ max s.now moment then
      let t := ({ s with
        now := max s.now moment
        mode := { s.mode with panel := .lit, startup := .none } }).askFlag .done
      if s.mode.stopRecorded then t.enterStopping
      else if s.mode.faultHeld then
        (t.setMode { t.mode with part := .faulted, faultHeld := false }).order s.mode.part.beginOrder
      else (t.setMode { t.mode with part := .active, idleCount := 0 }).order s.mode.part.beginOrder
    else s

/-- RAMP_DOWN_END (07 R137 step 3, R140, R141, R144). -/
def execRampDownEnd (moment : Nat) (s : State) : Result :=
  .next <|
    if s.mode.panel = .falling ∧ s.mode.rampEnd ≤ max s.now moment then
      let t := ({ s with
        now := max s.now moment
        mode := { s.mode with panel := .dark } }).askFlag .done
      if s.mode.part = .sleeping then
        if s.mode.stopRecorded then
          (t.setMode { t.mode with stopRecorded := false, endingsAwaited := true }).sendStop
        else t.setMode { t.mode with part := .sleep }
      else t.setMode { t.mode with part := .off }
    else s

/-! ## The waits of SLEEPING and STOPPING -/

/-- SLEEPING_QUIESCED (07 R137): the engine IDLE and the ready queue empty, the halt scanning order is sent. The ramp
down begins as the Scan Unit takes it, for every ramp down begins with the Scan Unit already STILL (R144, log 17). -/
def execSleepingQuiesced (s : State) : Result :=
  .next <|
    if s.mode.part = .sleeping ∧ s.mode.panel = .lit ∧ s.mode.haltSent = false ∧ s.engine.state = .idle ∧
        s.commit.ready = [] then
      (s.setMode { s.mode with haltSent := true }).order .haltScanning
    else s

/-- Whether the Scan Unit scans, or has an order under way that begins scanning (log 18). -/
def State.scanning (s : State) : Bool :=
  s.scan.mode != .still || s.mail.scanOrders.any fun o => o == .begin || o == .beginBlank

/-- STOPPING_ENGINE_IDLE (07 R139, step 4): the finish order, once. The engine has taken its abort request first (log
16). -/
def execStoppingEngineIdle (s : State) : Result :=
  .next <|
    if s.mode.part = .stopping ∧ s.mode.panel = .lit ∧ s.mode.finishSent = false ∧ s.engine.state = .idle ∧
        s.mail.abortStop = false ∧ s.scanning then
      (s.setMode { s.mode with finishSent := true }).order .finish
    else s

/-- Whether the Lane Service has taken the stop notice and every intake queue has emptied since (07 R140, R141, log
16), and every end report has been taken: STOP ends only with the flight notes clear too (05 R95, log 16). -/
def State.endingsOver (s : State) : Bool :=
  s.intakesEmpty && s.flightNotesClear && !s.mail.stopNotice && !s.mail.abortStop && s.lanes.job.isNone

/-- STOPPING_COMPLETE (07 R140): the four conditions hold, and the ramp down begins. -/
def execStoppingComplete (s : State) : Result :=
  .next <|
    if s.mode.part = .stopping ∧ s.mode.panel = .lit ∧ s.scan.mode = .still ∧ s.mail.scanOrders = [] ∧
        s.engine.state = .idle ∧ s.commit.ready = [] ∧ s.endingsOver then
      s.rampDown
    else s

/-- SLEEP_STOP_ENDINGS_DONE (07 R141, step 4): the part is OFF; a STOP that was taken in SLEEP has its result. -/
def execSleepStopEndingsDone (s : State) : Result :=
  .next <|
    if s.mode.endingsAwaited ∧ s.endingsOver then
      let t := (s.setMode { s.mode with part := .off, faultHeld := false, endingsAwaited := false }).askFlag .done
      if s.mode.command = .endings then t.giveResult .ok else t
    else s

/-! ## Boundaries -/

/-- 07 R134: a quiet boundary. -/
def quiet (pub : PublicationReport) (poll : PollReport) : Bool :=
  pub.sets == 0 && !poll.appended && !poll.ticketTaken

/-- 07 R135: the test for HOLD. -/
def State.holds (s : State) : Bool :=
  match s.mode.plan with
  | none => false
  | some p =>
    p.holdThreshold != 0 && p.holdThreshold ≤ s.mode.idleCount && s.engine.state == .idle && s.intakesEmpty

/-- 07 R135: the part enters HOLD if the test holds. -/
def State.tryHold (s : State) : State :=
  if s.holds then (s.setMode { s.mode with part := .hold }).order .heldCadence else s

/-- 07 R134: the idle-boundary count after a boundary in ACTIVE. -/
def idleAfter (count : Nat) (isQuiet : Bool) : Nat := if isQuiet then min (count + 1) 255 else 0

/-- BOUNDARY_EVALUATION (07 R134, R135, R136): the oldest publication report and the oldest poll report are matched. -/
def execBoundaryEvaluation (s : State) : Result :=
  .next <|
    match s.mode.pubReports, s.mode.pollReports with
    | pub :: pubs, poll :: polls =>
      let t := { s with
        mode := { s.mode with pubReports := pubs, pollReports := polls }
        mail := { s.mail with modeBoundary := s.mail.modeBoundary.drop 1 } }
      match s.mode.part with
      | .active => (t.setMode { t.mode with idleCount := idleAfter t.mode.idleCount (quiet pub poll) }).tryHold
      | .hold => if quiet pub poll then t else t.returnToActive
      | .off | .starting | .sleeping | .sleep | .waking | .stopping | .faulted => t
    | _, _ => s

/-! ## Fault reports -/

/-- 07 R142: a fault report acts according to the part state and the panel. SLEEPING is past the end of its wait once
its halt order has been sent: from then on the report is held, as during the ramp down (R145, log 17). -/
def State.faultReport (s : State) : State :=
  match s.mode.part with
  | .active => s.enterFaulted
  | .hold => s.enterFaulted.order .frameCadence
  | .sleeping =>
    if s.mode.panel = .lit ∧ s.mode.haltSent = false then
      (if s.mode.stopRecorded then s.enterStopping else s.enterFaulted)
    else s.setMode { s.mode with faultHeld := true }
  | .sleep | .starting | .waking => s.setMode { s.mode with faultHeld := true }
  | .stopping | .off | .faulted => s

/-- DAMAGE_LIMIT_REPORT (07 R142). -/
def execDamageLimitReport (s : State) : Result :=
  .next <|
    match s.mail.damageLimit with
    | 0 => s
    | n + 1 => { s with mail := { s.mail with damageLimit := n } }.faultReport

/-- RECORDER_FAILURE_REPORT (07 R142, 08 R153). -/
def execRecorderFailureReport (s : State) : Result :=
  .next <|
    match s.mail.recorderFailures with
    | 0 => s
    | n + 1 => { s with mail := { s.mail with recorderFailures := n } }.faultReport

end Sys2Proof.Machine
end

