-- ==== Sys2Proof/Machine/Resets.lean ====
section
/-! DEFINITION. Resets (01 R20, 03 R71, 04 R92, 05 R114, 07 R146, 09 R160, R163, R164): the reset pin going active and
inactive, and the soft reset. -/

namespace Sys2Proof.Machine

/-- The Line Store after a soft reset: the contents stay, the damage marks are cleared (01 R20). -/
def LineStore.softReset (st : LineStore) : LineStore :=
  { lines := st.lines, marks := List.replicate 384 false, markedCount := 0 }

/-- The reset values of every unit, the exchange area base kept, and no message under way. -/
def State.softReset (s : State) : State :=
  { pending := s.pending, now := s.now, powerOns := s.powerOns, mem := s.mem,
    port := { RegisterPort.reset with exb := s.port.exb },
    mode := .reset, scan := .reset, commit := .reset, lanes := .reset, arbiter := .reset, engine := .reset,
    map := .reset, store := s.store.softReset, recorder := .reset, mail := .empty }

/-- The power-on values: those of the soft reset, with the exchange area base 0 and the store contents unknown. -/
def State.powerOnReset (s : State) : State :=
  { s.softReset with
    powerOns := s.powerOns + 1
    port := .reset
    store := .reset (s.powerOns + 1) }

/-- POWER_ON_RESET (07 R146): RST has gone inactive. -/
def execPowerOnReset (begun : Begun) (s : State) : Result := .next (s.completeBegun begun).powerOnReset

/-- RESET (09 R160, 07 R146): the RESET code written to CMD; ignored while the reset pin is held (R158). -/
def execReset (begun : Begun) (s : State) : Result :=
  .next <| if s.port.resetPin then s else (s.completeBegun begun).softReset

/-- RESET_PIN_ASSERTED (07 R146, 09 R158, R163): every unit abandons its work at once (log 27). -/
def execResetPinAsserted (begun : Begun) (s : State) : Result :=
  .next <|
    let t := (s.completeBegun begun).softReset
    { t with port := { t.port with resetPin := true } }

end Sys2Proof.Machine
end

