-- ==== Sys2Proof/Machine/RegisterPort.lean ====
section
/-! DEFINITION. The Register Port (Chapter 9): writes to the register window, the command slot, the setting of pending
flags, and the results of part commands. -/

namespace Sys2Proof.Machine

/-! ## The command slot (09 R160) -/

/-- The Mode Controller takes the command handed to it, unless the endings of a recorded STOP are under way (07 R132,
R141, log 29). -/
def State.takeHanded (s : State) (c : PartCommand) : State :=
  if s.mode.command = .handed ∧ s.port.inHand = some c ∧ s.mode.endingsAwaited = false then s.takeCommand c else s

/-- 09 R160: a command that arrives is handed over and taken at once, waits, or is refused. -/
def State.commandArrives (s : State) (c : PartCommand) : State :=
  match s.port.inHand, s.port.waiting with
  | none, _ =>
    { s with
      port := { s.port with inHand := some c }
      mode := { s.mode with command := .handed } }.takeHanded c
  | some _, none => { s with port := { s.port with waiting := some c } }
  | some _, some _ => { s with port := { s.port with lastResult := .refusedBusy } }

/-- The enables replaced (09 R160). -/
def State.setEnables (s : State) (enables : BitVec 5) : State :=
  { s with port := { s.port with enables := .ofBits enables } }

/-- 09 R160: a CMD write of a command for the slot; ignored while the reset pin is held (R158). -/
def State.commandWrite (s : State) (c : PartCommand) (enables : BitVec 5) : State :=
  if s.port.resetPin then s else (s.setEnables enables).commandArrives c

/-- A part command from either source (log 11). -/
def State.command (s : State) (c : PartCommand) : CmdSource → State
  | .write enables => s.commandWrite c enables
  | .handedOver => s.takeHanded c

/-- START (07 R129, 09 R160). -/
def execStart (source : CmdSource) (s : State) : Result := .next (s.command .start source)

/-- STOP (07 R139, R141, 09 R160). -/
def execStop (source : CmdSource) (s : State) : Result := .next (s.command .stop source)

/-- SLEEP (07 R137, 09 R160). -/
def execSleep (source : CmdSource) (s : State) : Result := .next (s.command .sleep source)

/-- WAKE (07 R136, R138, 09 R160). -/
def execWake (source : CmdSource) (s : State) : Result := .next (s.command .wake source)

/-! ## Register writes -/

/-- ENABLE_WRITE (09 R160): a 32-bit CMD write. Its command code is 0 or 6 to 15 in the ordinary use of this row; the
codes 1 to 5 act as the rows of those commands do (log 12). -/
def execEnableWrite (value : Word) (s : State) : Result :=
  .next <|
    if s.port.resetPin then s
    else if value.extractLsb' 0 4 = 5#4 then s.softReset
    else match partCommandOf (value.extractLsb' 0 4) with
      | some c => (s.setEnables (flagBits value)).commandArrives c
      | none => s.setEnables (flagBits value)

/-- EXB_WRITE (09 R159): taken in OFF with command busy clear, otherwise ignored. -/
def execExbWrite (value : Word) (s : State) : Result :=
  .next <|
    if s.port.resetPin = false ∧ s.mode.part = .off ∧ s.port.busy = false then
      { s with port := { s.port with exb := value } }
    else s

/-- STS_WRITE (09 R161, 08 R152, R155): the flags written with one are cleared, and a one at the OVERFLOW position
sends the Fault Recorder its clearing message. -/
def execStsWrite (value : Word) (s : State) : Result :=
  .next <|
    if s.port.resetPin then s
    else
      { s with
        port := { s.port with flags := s.port.flags.clearBits (flagBits value) }
        mail := { s.mail with
          overflowClears := if value.getLsbD 20 then s.mail.overflowClears + 1 else s.mail.overflowClears } }

/-- REGISTER_WRITE_IGNORED (09 R158, R162): a write to FRC, of fewer than 32 bits, or above 0Ch changes nothing, nor
does a 32-bit write at an offset that is no multiple of 4 (log 43). -/
def execRegisterWriteIgnored (_offset _width : Nat) (_value : Word) (s : State) : Result := .next s

/-! ## Flags and results -/

/-- FLAG_SET_REQUEST (08 R155): a request to set this flag is taken, the operand saying which. Requests for different
flags may be taken out of the order they were sent in, one unit's among them: DESIGN CHOICE (log 38). -/
def execFlagSetRequest (flag : Flag) (s : State) : Result :=
  .next <|
    if s.mail.flagRequests.contains flag then
      { s with
        port := { s.port with flags := s.port.flags.set flag }
        mail := { s.mail with flagRequests := s.mail.flagRequests.erase flag } }
    else s

/-- COMMAND_RESULT (09 R160): the result of the command in hand is shown, and the waiting command is handed over or
command busy cleared. -/
def execCommandResult (s : State) : Result :=
  .next <|
    match s.mode.command with
    | .answered r =>
      match s.port.waiting with
      | some c =>
        { s with
          port := { s.port with lastResult := r, inHand := some c, waiting := none }
          mode := { s.mode with command := .handed } }
      | none =>
        { s with
          port := { s.port with lastResult := r, inHand := none }
          mode := { s.mode with command := .idle } }
    | _ => s

end Sys2Proof.Machine
end

