-- ==== Sys2Proof/Machine/Dispatch.lean ====
section
/-! DEFINITION. Dispatch: the meaning of each command, one arm per row of spec/opcode_table.json. -/

namespace Sys2Proof.Machine

def exec (i : Instr) (s : State) : Host.Outcome State Fault Refusal :=
  match i with
  | .powerOnReset begun => Sys2Proof.Machine.execPowerOnReset begun s
  | .start source => Sys2Proof.Machine.execStart source s
  | .planRead bus => Sys2Proof.Machine.execPlanRead bus s
  | .stop source => Sys2Proof.Machine.execStop source s
  | .sleep source => Sys2Proof.Machine.execSleep source s
  | .wake source => Sys2Proof.Machine.execWake source s
  | .reset begun => Sys2Proof.Machine.execReset begun s
  | .enableWrite value => Sys2Proof.Machine.execEnableWrite value s
  | .exbWrite value => Sys2Proof.Machine.execExbWrite value s
  | .stsWrite value => Sys2Proof.Machine.execStsWrite value s
  | .registerWriteIgnored offset width value => Sys2Proof.Machine.execRegisterWriteIgnored offset width value s
  | .startingLineFill => Sys2Proof.Machine.execStartingLineFill s
  | .laneSetup bus => Sys2Proof.Machine.execLaneSetup bus s
  | .setupComplete => Sys2Proof.Machine.execSetupComplete s
  | .rampUpEnd moment => Sys2Proof.Machine.execRampUpEnd moment s
  | .rampDownEnd moment => Sys2Proof.Machine.execRampDownEnd moment s
  | .sleepingQuiesced => Sys2Proof.Machine.execSleepingQuiesced s
  | .stoppingEngineIdle => Sys2Proof.Machine.execStoppingEngineIdle s
  | .stoppingComplete => Sys2Proof.Machine.execStoppingComplete s
  | .boundaryEvaluation => Sys2Proof.Machine.execBoundaryEvaluation s
  | .damageLimitReport => Sys2Proof.Machine.execDamageLimitReport s
  | .recorderFailureReport => Sys2Proof.Machine.execRecorderFailureReport s
  | .frameStart moment => Sys2Proof.Machine.execFrameStart moment s
  | .rowOutput moment => Sys2Proof.Machine.execRowOutput moment s
  | .beginOrder => Sys2Proof.Machine.execBeginOrder s
  | .beginWithBlankFrame => Sys2Proof.Machine.execBeginWithBlankFrame s
  | .frameCadence => Sys2Proof.Machine.execFrameCadence s
  | .heldCadence => Sys2Proof.Machine.execHeldCadence s
  | .finishOrder => Sys2Proof.Machine.execFinishOrder s
  | .haltScanning => Sys2Proof.Machine.execHaltScanning s
  | .commitBoundary => Sys2Proof.Machine.execCommitBoundary s
  | .publicationComplete => Sys2Proof.Machine.execPublicationComplete s
  | .commitMarkEnd moment => Sys2Proof.Machine.execCommitMarkEnd moment s
  | .publicationReport => Sys2Proof.Machine.execPublicationReport s
  | .committedOutcomeWrite bus => Sys2Proof.Machine.execCommittedOutcomeWrite bus s
  | .readyAppend => Sys2Proof.Machine.execReadyAppend s
  | .laneBoundary => Sys2Proof.Machine.execLaneBoundary s
  | .laneRequestRead bus => Sys2Proof.Machine.execLaneRequestRead bus s
  | .nextLinkRead bus => Sys2Proof.Machine.execNextLinkRead bus s
  | .headerRead bus => Sys2Proof.Machine.execHeaderRead bus s
  | .laneRecordWrite bus => Sys2Proof.Machine.execLaneRecordWrite bus s
  | .endReport reporter => Sys2Proof.Machine.execEndReport reporter s
  | .completionReport => Sys2Proof.Machine.execCompletionReport s
  | .stopNotice => Sys2Proof.Machine.execStopNotice s
  | .pollReport => Sys2Proof.Machine.execPollReport s
  | .eligibilityReport => Sys2Proof.Machine.execEligibilityReport s
  | .grantRequest => Sys2Proof.Machine.execGrantRequest s
  | .grant => Sys2Proof.Machine.execGrant s
  | .grantAnswer => Sys2Proof.Machine.execGrantAnswer s
  | .arbiterBoundary => Sys2Proof.Machine.execArbiterBoundary s
  | .trailerReadStart bus => Sys2Proof.Machine.execTrailerReadStart bus s
  | .opRecordRead bus => Sys2Proof.Machine.execOpRecordRead bus s
  | .writeClaimAnswer => Sys2Proof.Machine.execWriteClaimAnswer s
  | .engineLineReadAnswer => Sys2Proof.Machine.execEngineLineReadAnswer s
  | .engineLineWriteDone => Sys2Proof.Machine.execEngineLineWriteDone s
  | .aliasClaimAnswer => Sys2Proof.Machine.execAliasClaimAnswer s
  | .shiftClaimAnswer => Sys2Proof.Machine.execShiftClaimAnswer s
  | .viewReadAnswer => Sys2Proof.Machine.execViewReadAnswer s
  | .sourceRowRead bus => Sys2Proof.Machine.execSourceRowRead bus s
  | .readbackRowWrite bus => Sys2Proof.Machine.execReadbackRowWrite bus s
  | .trailerReadEnd bus => Sys2Proof.Machine.execTrailerReadEnd bus s
  | .unwindAnswer => Sys2Proof.Machine.execUnwindAnswer s
  | .abortOutcomeWrite bus => Sys2Proof.Machine.execAbortOutcomeWrite bus s
  | .releaseNotice => Sys2Proof.Machine.execReleaseNotice s
  | .abortRequestStop => Sys2Proof.Machine.execAbortRequestStop s
  | .abortRequestLane => Sys2Proof.Machine.execAbortRequestLane s
  | .viewRead => Sys2Proof.Machine.execViewRead s
  | .liveRead => Sys2Proof.Machine.execLiveRead s
  | .writeClaim => Sys2Proof.Machine.execWriteClaim s
  | .aliasClaim flaws => Sys2Proof.Machine.execAliasClaim flaws s
  | .shiftClaim => Sys2Proof.Machine.execShiftClaim s
  | .unwindClaim => Sys2Proof.Machine.execUnwindClaim s
  | .publishClaim => Sys2Proof.Machine.execPublishClaim s
  | .markNotice => Sys2Proof.Machine.execMarkNotice s
  | .lineRead reader flaws => Sys2Proof.Machine.execLineRead reader flaws s
  | .wholeLineWrite writer => Sys2Proof.Machine.execWholeLineWrite writer s
  | .spanWrite => Sys2Proof.Machine.execSpanWrite s
  | .faultRequest sender => Sys2Proof.Machine.execFaultRequest sender s
  | .faultSearchRead bus => Sys2Proof.Machine.execFaultSearchRead bus s
  | .faultEntryWrite bus => Sys2Proof.Machine.execFaultEntryWrite bus s
  | .overflowClear => Sys2Proof.Machine.execOverflowClear s
  | .flagSetRequest flag => Sys2Proof.Machine.execFlagSetRequest flag s
  | .commandResult => Sys2Proof.Machine.execCommandResult s
  | .resetPinAsserted begun => Sys2Proof.Machine.execResetPinAsserted begun s
  | .sleepStopEndingsDone => Sys2Proof.Machine.execSleepStopEndingsDone s

end Sys2Proof.Machine
end

