-- ==== Sys2Proof/Safety.lean ====
section
/-! DEFINITION. What holds in every state of a sound run, and the vocabulary of the statements: the invariants of
system memory, of the Map Unit and the Line Store, of the part state and the panel, of the queues and counters, of the
sets in flight; which part state may follow which; which lines a claim gives back; and the operands of a command that bear on memory. -/

namespace Sys2Proof

/-- The bus transfer a command ends, if it ends one. -/
def Instr.busEvent : Instr → Option BusEvent
  | .planRead bus | .laneSetup bus | .committedOutcomeWrite bus | .laneRequestRead bus | .nextLinkRead bus
  | .headerRead bus | .laneRecordWrite bus | .trailerReadStart bus | .opRecordRead bus | .sourceRowRead bus
  | .readbackRowWrite bus | .trailerReadEnd bus | .abortOutcomeWrite bus | .faultSearchRead bus
  | .faultEntryWrite bus => some bus
  | .powerOnReset _ | .start _ | .stop _ | .sleep _ | .wake _ | .reset _ | .enableWrite _ | .exbWrite _ | .stsWrite _
  | .registerWriteIgnored _ _ _ | .startingLineFill | .setupComplete | .rampUpEnd _ | .rampDownEnd _
  | .sleepingQuiesced | .stoppingEngineIdle | .stoppingComplete | .boundaryEvaluation | .damageLimitReport
  | .recorderFailureReport | .frameStart _ | .rowOutput _ | .beginOrder | .beginWithBlankFrame | .frameCadence
  | .heldCadence | .finishOrder | .haltScanning | .commitBoundary | .publicationComplete | .commitMarkEnd _
  | .publicationReport | .readyAppend | .laneBoundary | .endReport _ | .completionReport | .stopNotice | .pollReport
  | .eligibilityReport | .grantRequest | .grant | .grantAnswer | .arbiterBoundary | .writeClaimAnswer
  | .engineLineReadAnswer | .engineLineWriteDone | .aliasClaimAnswer | .shiftClaimAnswer | .viewReadAnswer
  | .unwindAnswer | .releaseNotice | .abortRequestStop | .abortRequestLane | .viewRead | .liveRead | .writeClaim
  | .aliasClaim _ | .shiftClaim | .unwindClaim | .publishClaim | .markNotice | .lineRead _ _ | .wholeLineWrite _
  | .spanWrite | .faultRequest _ | .overflowClear | .flagSetRequest _ | .commandResult | .resetPinAsserted _
  | .sleepStopEndingsDone => none

/-- The bus write a reset found begun, if the command is a reset that found one. -/
def Instr.begunWrite : Instr → Begun
  | .powerOnReset begun | .reset begun | .resetPinAsserted begun => begun
  | _ => none

/-- How the bus transfer that a command tells of ended, be it the command's own or one that a reset found begun. -/
def Instr.transfer (c : Instr) : Option BusEvent :=
  match c.busEvent, c.begunWrite with
  | some bus, _ => some bus
  | none, some (_, bus) => some bus
  | none, none => none

/-- 09 R157: the place of a pending flag in STS and of its enable in CMD. -/
def Flag.position : Flag → Nat
  | .notify => 16
  | .fault => 17
  | .lane => 18
  | .done => 19
  | .overflow => 20

/-- Whether the command is a reset: of the pin, of its release, or of CMD. -/
def Instr.isReset : Instr → Bool
  | .powerOnReset _ | .reset _ | .resetPinAsserted _ => true
  | .enableWrite value => value.extractLsb' 0 4 == 5#4
  | _ => false

namespace Machine

/-- The row of a part command (09 R160). -/
def PartCommand.instr : PartCommand → CmdSource → Instr
  | .start => .start
  | .stop => .stop
  | .sleep => .sleep
  | .wake => .wake

/-- The address and the bytes of the bus write that a command ends or, for a reset, finds begun (09 R164). -/
def State.storeOf (s : State) : Instr → Option (Word × List Byte)
  | .laneRecordWrite _ => s.outstandingWrite .laneService
  | .committedOutcomeWrite _ => s.outstandingWrite .commitUnit
  | .faultEntryWrite _ => s.outstandingWrite .recorder
  | .abortOutcomeWrite _ => if s.engine.link = .outcomeWrite then s.outstandingWrite .engine else none
  | .readbackRowWrite _ => if s.engine.link = .outcomeWrite then none else s.outstandingWrite .engine
  | .powerOnReset begun | .reset begun | .resetPinAsserted begun =>
    match begun with
    | some (u, _) => s.outstandingWrite u
    | none => none
  | _ => none

/-! ## The Map Unit and the Line Store -/

/-- Whether a staging entry is present and names a line. -/
def namesLine (line : Nat) : Option StagedEntry → Bool
  | some e => e.line == line
  | none => false

/-- How many staging entries name a line (01 R7). -/
def MapUnit.stagedNaming (m : MapUnit) (line : Nat) : Nat := m.staging.countP (namesLine line)

/-- 01 R5 to R10: 240 rows, each naming a line of the store; 384 counts of each kind, each the number of map entries
that name the line; and every line that nothing names in exactly one place of the free pool and the damaged list. -/
structure MapUnit.Consistent (m : MapUnit) : Prop where
  liveLength   : m.live.length = Config.rows
  stageLength  : m.staging.length = Config.rows
  liveCounts   : m.liveCount.length = Config.storeLines
  stageCounts  : m.stageCount.length = Config.storeLines
  liveNames    : ∀ n ∈ m.live, n < Config.storeLines
  stageNames   : ∀ e, some e ∈ m.staging → e.line < Config.storeLines
  liveCounted  : ∀ n, n < Config.storeLines → m.liveOf n = m.live.count n
  stageCounted : ∀ n, n < Config.storeLines → m.stageOf n = m.stagedNaming n
  standsOnce   : (m.pool ++ m.damaged).Nodup
  standsWhere  : ∀ n, n ∈ m.pool ++ m.damaged ↔ n < Config.storeLines ∧ m.liveOf n = 0 ∧ m.stageOf n = 0

/-- 01 R8, R16, R17: the lines that a claim has left with nothing to name them, in the order it gave them back: each row
gives up the line that `gives` names, rows ascending, and a line is given back at the last row that gives it up. -/
def MapUnit.linesLeft (after : MapUnit) (gives : Nat → Option Nat) : List Nat :=
  (List.range Config.rows).filterMap fun r =>
    (gives r).filter fun line =>
      after.unreferenced line && (List.range Config.rows).all fun r' => r' ≤ r || gives r' != some line

/-- 01 R8: what the return test does with lines given back in order: those without a damage mark join the tail of the
free pool, those with one the tail of the damaged list. -/
def MapUnit.GivesBack (before after : MapUnit) (marked : Nat → Bool) (lines : List Nat) : Prop :=
  after.pool = before.pool ++ lines.filter (fun line => !marked line) ∧
  after.damaged = before.damaged ++ lines.filter marked

/-- 01 R19: a line's damage mark is set and no mark notice of the line is under way. -/
def State.markKnown (s : State) (line : Nat) : Bool := s.store.marked line && !s.mail.markNotices.contains line

/-- 01 R1, R4: 384 lines, 384 damage marks, and the marked count is the number of marks set. -/
structure LineStore.Consistent (st : LineStore) : Prop where
  lineCount : st.lines.length = Config.storeLines
  markCount : st.marks.length = Config.storeLines
  counted   : st.markedCount = st.marks.count true

/-! ## The part state and the panel -/

/-- 07 R127, R131, R141, R144, 09 R160: the panel condition agrees with the part state; unless the panel is LIT the Scan
Unit is STILL and no order to it is under way; work under way at the Mode Controller belongs to the part state it is
done in; and a command is in hand exactly while the Mode Controller has one. -/
structure State.ModeConsistent (s : State) : Prop where
  rising  : s.mode.panel = .rising → s.mode.part = .starting ∨ s.mode.part = .waking
  falling : s.mode.panel = .falling → s.mode.part = .sleeping ∨ s.mode.part = .stopping
  lit     : s.mode.panel = .lit → s.mode.part = .active ∨ s.mode.part = .hold ∨ s.mode.part = .faulted ∨
              s.mode.part = .sleeping ∨ s.mode.part = .stopping
  dark    : s.mode.panel = .dark → s.mode.part = .off ∨ s.mode.part = .starting ∨ s.mode.part = .sleep ∨
              s.mode.part = .sleeping
  unlit   : s.mode.panel ≠ .lit → s.scan.mode = .still ∧ s.mail.scanOrders = []
  halting : s.mode.haltSent = true → s.mode.part = .sleeping ∧ s.mode.panel = .lit ∧
              ∃ orders, s.mail.scanOrders = orders ++ [.haltScanning] ∧ .haltScanning ∉ orders
  halted  : s.mode.haltSent = false → .haltScanning ∉ s.mail.scanOrders
  endings : s.mode.endingsAwaited = true → s.mode.panel = .dark ∧ (s.mode.part = .sleep ∨ s.mode.part = .sleeping)
  stopEnds : s.mode.command = .endings → s.mode.part = .sleep ∧ s.mode.endingsAwaited = true
  planning : s.mode.command = .planRead → s.mode.part = .off
  startup : s.mode.startup ≠ .none → s.mode.part = .starting
  slot    : s.port.inHand = none ↔ s.mode.command = .idle

/-- The changes of part state that Chapter 7 gives (R129 to R143); a reset leads to OFF from every state (R146). -/
def PartState.leadsTo : PartState → PartState → Bool
  | .off, b => b == .starting
  | .starting, b => b == .active || b == .faulted || b == .stopping
  | .active, b => b == .hold || b == .sleeping || b == .stopping || b == .faulted
  | .hold, b => b == .active || b == .sleeping || b == .stopping || b == .faulted
  | .sleeping, b => b == .sleep || b == .off || b == .stopping || b == .faulted
  | .sleep, b => b == .waking || b == .off
  | .waking, b => b == .active || b == .faulted || b == .stopping
  | .stopping, b => b == .off
  | .faulted, b => b == .stopping

/-! ## Queues and counters -/

/-- The lane whose chain a bus read of the poll is following (05 R98, R99). -/
def State.fetching (s : State) : Option Lane :=
  match s.lanes.job with
  | some j =>
    match j.phase with
    | .linkRead | .headerRead _ => some j.lane
    | .recordRead | .acting | .ended => none
  | none => none

/-- 04 R82, 05 R93, R102, 06 R116, 07 R127, 08 R148: at most 2 intake entries for each lane, with room for one more
while a fetch is under way; at most 4 sets in the ready queue, one for each lane; at most 1 abort outstanding, and none
but for a DRAINING lane; credit, wait count and idle-boundary count within their ranges; at most 8 fault requests
waiting. -/
structure State.WithinCapacity (s : State) : Prop where
  intake   : ∀ l, (s.lane l).intake.length ≤ 2
  fetching : ∀ l, s.fetching = some l → (s.lane l).intake.length < 2
  ready    : s.commit.ready.length ≤ 4
  lanes    : (s.commit.ready.map fun e => e.lane).Nodup
  aborts   : ∀ l, (s.lane l).abortsOutstanding ≤ 1
  awaited  : ∀ l, (s.lane l).state ≠ .draining → (s.lane l).abortsOutstanding = 0
  credit   : ∀ l, (s.arb l).credit ≤ 15
  wait     : ∀ l, (s.arb l).wait ≤ 255
  idle     : s.mode.idleCount ≤ 255
  faults   : s.recorder.queue.length ≤ 8

/-! ## The end of a boundary's work after a stop notice -/

/-- 05 R112, R104: the work of a boundary has been ended by a stop notice. The poll report goes out, the ordinary entries
of every lane are marked STOPPED, and the lanes whose flight note is clear end their entries, lane 0 first (log 45). -/
def State.stoppedAfter (s : State) (j : BoundaryJob) : State :=
  { s with
    lanes := { s.lanes with
      lanes := PerLane.ofFn fun l =>
        { s.lane l with
          intake := (s.lane l).intake.map fun e => if e.mark = .ordinary then { e with mark := .stopped } else e }
      job := none
      agenda := [0, 1, 2, 3].flatMap fun l : Lane =>
        if (s.lane l).flight = none ∧ (s.lane l).intake ≠ [] then
          [.writeEntryOutcome l, .writeEntryReleased l, .notifyEntry l, .removeEntry l, .endEntries l]
        else [] }
    mail := { s.mail with pollReports := s.mail.pollReports ++ [⟨j.appended, j.ticketTaken⟩] } }

/-! ## Sets in flight -/

/-- Whether a report of the engine is the end report of a set of the lane. -/
def EngineReport.endsSetOf (l : Lane) : EngineReport → Bool
  | .ended r => r.lane == l
  | .completion _ => false

/-- How many sets of the lane are in flight (05 R103): in the engine, in the ready queue, or ended by the engine with the
end report not yet taken. -/
def State.setsInFlight (s : State) (l : Lane) : Nat :=
  (s.engine.slot.toList.filter fun sl => sl.lane == l).length + s.commit.ready.countP (fun e => e.lane == l) +
    s.mail.engineReports.countP (EngineReport.endsSetOf l)

/-- Whether the lane's ready-queue entry is about to leave: it stands at the head, and the Lane Service has only to tell
the Commit Unit that its end report has been taken (04 R89, 05 R105). -/
def State.leaving (s : State) (l : Lane) : Prop :=
  .reportTaken ∈ s.lanes.agenda ∧ s.commit.ready.head?.map (fun e => e.lane) = some l

/-- 04 R82, R89, 05 R103, R105: a lane has at most one set in flight and its flight note is set while it has one; the
Commit Unit's end report is that of the entry at the head of the ready queue. -/
structure State.FlightConsistent (s : State) : Prop where
  one      : ∀ l, s.setsInFlight l ≤ 1
  noted    : ∀ l, s.setsInFlight l = 0 ∨ (s.lane l).flight ≠ none ∨ s.leaving l
  clearing : ∀ l, .clearFlight l ∈ s.lanes.agenda → s.setsInFlight l = 0 ∨ s.leaving l
  reported : ∀ r, s.mail.commitReport = some r → s.commit.outcomeWork = .reported ∧ .reportTaken ∉ s.lanes.agenda ∧
               s.commit.ready.head?.map (fun e => e.lane) = some r.lane
  taking   : .reportTaken ∈ s.lanes.agenda → s.commit.outcomeWork = .reported ∧ s.mail.commitReport = none ∧
               s.commit.ready ≠ [] ∧ s.lanes.agenda.count .reportTaken = 1

end Machine
end Sys2Proof
end

