-- ==== Sys2Proof/Certificates/Slice0/Obligations.lean ====
section
/-! DEFINITION. The statements for the provers: what each command of the block does, by the rules of spec/, and what every
step keeps. Where a statement says `exec c s = .next t` with `t` written as an update of `s`, whatever the update does
not name is unchanged: the frame is part of the statement. -/

open Sys2Proof Sys2Proof.Machine

/-! ## The queue -/

/-- A step runs the command at the front of the queue on the state with the queue's rest; an empty queue idles (log
2). -/
def Obligations.StepRunsTheFrontCommand : Prop :=
  (∀ (c : Instr) (rest : List Instr) (s : State), s.pending = c :: rest → step s = exec c { s with pending := rest }) ∧
  (∀ s : State, s.pending = [] → step s = .next s)

/-- Every command answers a next state in every state and leaves the queue alone: none faults, none is refused. That a
command without its occasion answers a next state too, and leaves the state as it is, is the model's choice (log 1). -/
def Obligations.EveryCommandAnswers : Prop :=
  ∀ (c : Instr) (s : State), ∃ t, exec c s = .next t ∧ t.pending = s.pending

/-! ## The register window (Chapter 9) -/

/-- R157, R158, R161, R162: what reads return. That a read of fewer than 32 bits at 0Dh to 0Fh returns bytes of FRC is
the model's choice (log 37), and so is that a register's least significant byte stands at its lowest offset (log 42). -/
def Obligations.RegisterReads : Prop :=
  [PartState.off, .starting, .active, .hold, .sleeping, .sleep, .waking, .stopping, .faulted].map PartState.code =
    List.range 9 ∧
  [CommandResult.noResult, .ok, .refusedState, .refusedBase, .planInvalid, .refusedBusy].map CommandResult.code =
    List.range 6 ∧
  ∀ s : State,
    (s.port.resetPin = true → ∀ offset, s.readRegister offset = 0) ∧
    (s.port.resetPin = false →
      s.readRegister 0x00 = s.port.exb ∧
      (∀ f : Flag, (s.readRegister 0x04).getLsbD f.position = s.port.enables.get f) ∧
      (∀ i, (∀ f : Flag, f.position ≠ i) → (s.readRegister 0x04).getLsbD i = false) ∧
      (s.readRegister 0x08).extractLsb' 0 4 = BitVec.ofNat 4 s.mode.part.code ∧
      (s.readRegister 0x08).extractLsb' 4 4 = BitVec.ofNat 4 s.port.lastResult.code ∧
      (s.readRegister 0x08).getLsbD 15 = s.port.inHand.isSome ∧
      (∀ f : Flag, (s.readRegister 0x08).getLsbD f.position = s.port.flags.get f) ∧
      (∀ i, 7 < i → i ≠ 15 → (∀ f : Flag, f.position ≠ i) → (s.readRegister 0x08).getLsbD i = false) ∧
      s.readRegister 0x0C = s.scan.frameCount ∧
      (∀ offset, 0x0C < offset → s.readRegister offset = 0)) ∧
    (∀ offset, s.readRegisterByte offset = (s.readRegister (offset / 4 * 4)).extractLsb' (offset % 4 * 8) 8)

/-- R158, R159, R160, R161, R162: the writes of EXB, of the enables and of STS, the reset pin not held, with the
model's convention on ENABLE_WRITE (log 12); and the writes that change nothing: the ignored ones, a 32-bit write at an
offset below 0Ch that is no multiple of 4 among them (the model's choice, log 43), and every write while the reset pin is
held. -/
def Obligations.RegisterWrites : Prop :=
  (∀ (value : Word) (s : State), s.port.resetPin = false →
     exec (.exbWrite value) s = .next
       (if s.mode.part = .off ∧ s.port.inHand = none then { s with port := { s.port with exb := value } } else s) ∧
     exec (.stsWrite value) s = .next
       { s with
         port := { s.port with flags :=
           { notify := s.port.flags.notify && !value.getLsbD 16
             fault := s.port.flags.fault && !value.getLsbD 17
             lane := s.port.flags.lane && !value.getLsbD 18
             done := s.port.flags.done && !value.getLsbD 19
             overflow := s.port.flags.overflow && !value.getLsbD 20 } }
         mail := { s.mail with overflowClears := s.mail.overflowClears + (value.getLsbD 20).toNat } } ∧
     ((value.extractLsb' 0 4 = 0 ∨ 6 ≤ (value.extractLsb' 0 4).toNat) → exec (.enableWrite value) s = .next
       { s with port := { s.port with enables :=
           ⟨value.getLsbD 16, value.getLsbD 17, value.getLsbD 18, value.getLsbD 19, value.getLsbD 20⟩ } }) ∧
     (∀ c : PartCommand, partCommandOf (value.extractLsb' 0 4) = some c →
       exec (.enableWrite value) s = exec (c.instr (.write (value.extractLsb' 16 5))) s) ∧
     (value.extractLsb' 0 4 = 5 → exec (.enableWrite value) s = exec (.reset none) s)) ∧
  ((∀ (offset width : Nat) (value : Word) (s : State), exec (.registerWriteIgnored offset width value) s = .next s) ∧
   (∀ (value : Word) (c : PartCommand) (e : BitVec 5) (begun : Begun) (s : State), s.port.resetPin = true →
     exec (.exbWrite value) s = .next s ∧ exec (.stsWrite value) s = .next s ∧ exec (.enableWrite value) s = .next s ∧
     exec (c.instr (.write e)) s = .next s ∧ exec (.reset begun) s = .next s))

/-- R155: a request to set a flag sets it, whether or not it is set already, and no other; a second request stays for
its own command. Requests for different flags are taken in any order (log 38); without a request nothing changes (log
1). -/
def Obligations.FlagSetRequestSetsItsFlag : Prop :=
  ∀ (f : Flag) (s : State),
    (f ∈ s.mail.flagRequests → exec (.flagSetRequest f) s = .next
      { s with
        port := { s.port with flags :=
          { notify := s.port.flags.notify || f == .notify
            fault := s.port.flags.fault || f == .fault
            lane := s.port.flags.lane || f == .lane
            done := s.port.flags.done || f == .done
            overflow := s.port.flags.overflow || f == .overflow } }
        mail := { s.mail with flagRequests := s.mail.flagRequests.erase f } }) ∧
    (f ∉ s.mail.flagRequests → exec (.flagSetRequest f) s = .next s)

/-- R156: the interrupt line follows the flags and the enables, the reset pin not held. R163, R144, R164: while the pin
is held INT, CMK and PEN are low; otherwise CMK is high in a pulse of the Commit Unit alone, and PEN exactly while the
panel is RISING or LIT. -/
def Obligations.InterruptLineFollowsFlagsAndEnables : Prop :=
  (∀ s : State, s.port.resetPin = false →
    (s.port.interruptLine = true ↔ ∃ f : Flag, s.port.flags.get f = true ∧ s.port.enables.get f = true)) ∧
  (∀ (f : Flag) (s t : State), s.port.resetPin = false → f ∈ s.mail.flagRequests →
    exec (.flagSetRequest f) s = .next t →
      t.port.flags.get f = true ∧ (s.port.enables.get f = true → t.port.interruptLine = true)) ∧
  (∀ (f : Flag) (value : Word) (s t : State), s.port.resetPin = false →
    (value.extractLsb' 0 4 = 0 ∨ 6 ≤ (value.extractLsb' 0 4).toNat) → value.getLsbD f.position = true →
    exec (.enableWrite value) s = .next t → s.port.flags.get f = true → t.port.interruptLine = true) ∧
  (∀ (begun : Begun) (s t : State), s.port.resetPin = false →
    (exec (.reset begun) s = .next t ∨ exec (.powerOnReset begun) s = .next t) →
      (∀ f : Flag, t.port.enables.get f = false) ∧ t.port.interruptLine = false) ∧
  (∀ s : State,
    (s.port.resetPin = true → s.port.interruptLine = false ∧ s.commitMark = false ∧ s.panelEnable = false) ∧
    (s.port.resetPin = false →
      (s.commitMark = true ↔ s.commit.markHigh = true) ∧
      (s.panelEnable = true ↔ s.mode.panel = .rising ∨ s.mode.panel = .lit)))

/-! ## Part commands (09 R160, Chapter 7) -/

/-- R160: a command written replaces the enables, then is handed over, waits or is refused; one handed over that the
Mode Controller cannot take stays (log 11, log 29); the result of the command in hand is shown, and the waiting
command handed over or busy cleared. A hand-over of nothing and COMMAND_RESULT without an answer change nothing (log
1). -/
def Obligations.CommandsGoThroughTheSlot : Prop :=
  (∀ (c : PartCommand) (s : State),
     (∀ e : BitVec 5, s.port.resetPin = false →
       (s.port.inHand = none → exec (c.instr (.write e)) s = exec (c.instr .handedOver)
         { s with
           port := { s.port with
             enables := ⟨e.getLsbD 0, e.getLsbD 1, e.getLsbD 2, e.getLsbD 3, e.getLsbD 4⟩, inHand := some c }
           mode := { s.mode with command := .handed } }) ∧
       (∀ h, s.port.inHand = some h → s.port.waiting = none → exec (c.instr (.write e)) s = .next
         { s with port := { s.port with
             enables := ⟨e.getLsbD 0, e.getLsbD 1, e.getLsbD 2, e.getLsbD 3, e.getLsbD 4⟩, waiting := some c } }) ∧
       (∀ h w, s.port.inHand = some h → s.port.waiting = some w → exec (c.instr (.write e)) s = .next
         { s with port := { s.port with
             enables := ⟨e.getLsbD 0, e.getLsbD 1, e.getLsbD 2, e.getLsbD 3, e.getLsbD 4⟩
             lastResult := .refusedBusy } })) ∧
     (¬ (s.mode.command = .handed ∧ s.port.inHand = some c ∧ s.mode.endingsAwaited = false) →
       exec (c.instr .handedOver) s = .next s)) ∧
  (∀ s : State,
     (∀ r c, s.mode.command = .answered r → s.port.waiting = some c → exec .commandResult s = .next
       { s with
         port := { s.port with lastResult := r, inHand := some c, waiting := none }
         mode := { s.mode with command := .handed } }) ∧
     (∀ r, s.mode.command = .answered r → s.port.waiting = none → exec .commandResult s = .next
       { s with
         port := { s.port with lastResult := r, inHand := none }
         mode := { s.mode with command := .idle } }) ∧
     ((∀ r, s.mode.command ≠ .answered r) → exec .commandResult s = .next s))

/-- R129, R132, R136 to R139, R141: START's checks in their order, and STOP, SLEEP and WAKE in each part state. -/
def Obligations.PartCommandsAreTaken : Prop :=
  (∀ s : State, s.mode.command = .handed → s.port.inHand = some .start → s.mode.endingsAwaited = false →
     exec (.start .handedOver) s = .next
       { s with mode := { s.mode with command :=
           if s.mode.part ≠ .off then .answered .refusedState
           else if 16 < s.store.markedCount then .answered .refusedState
           else if s.port.exb = 0 ∨ s.port.exb.toNat % 64 ≠ 0 then .answered .refusedBase
           else .planRead } }) ∧
  (∀ s : State, s.mode.command = .handed → s.port.inHand = some .stop → s.mode.endingsAwaited = false →
     exec (.stop .handedOver) s = .next
       (match s.mode.part with
        | .off | .stopping => { s with mode := { s.mode with command := .answered .refusedState } }
        | .starting | .sleeping | .waking =>
          { s with mode := { s.mode with stopRecorded := true, command := .answered .ok } }
        | .active | .hold | .faulted =>
          { s with
            mode := { s.mode with
              part := .stopping, stopRecorded := false, faultHeld := false, finishSent := false
              command := .answered .ok }
            arbiter := { s.arbiter with requestWaiting := false }
            mail := { s.mail with stopNotice := true, abortStop := true } }
        | .sleep =>
          { s with
            mode := { s.mode with endingsAwaited := true, command := .endings }
            mail := { s.mail with stopNotice := true, abortStop := true } })) ∧
  (∀ s : State, s.mode.command = .handed → s.mode.endingsAwaited = false →
     (s.port.inHand = some .sleep → exec (.sleep .handedOver) s = .next
       (match s.mode.part with
        | .active =>
          { s with
            mode := { s.mode with part := .sleeping, command := .answered .ok }
            arbiter := { s.arbiter with requestWaiting := false } }
        | .hold =>
          { s with
            mode := { s.mode with part := .sleeping, command := .answered .ok }
            arbiter := { s.arbiter with requestWaiting := false }
            mail := { s.mail with scanOrders := s.mail.scanOrders ++ [.frameCadence] } }
        | .sleep => { s with mode := { s.mode with command := .answered .ok } }
        | .off | .starting | .sleeping | .waking | .stopping | .faulted =>
          { s with mode := { s.mode with command := .answered .refusedState } })) ∧
     (s.port.inHand = some .wake → exec (.wake .handedOver) s = .next
       (match s.mode.part with
        | .active => { s with mode := { s.mode with command := .answered .ok } }
        | .hold =>
          { s with
            mode := { s.mode with part := .active, idleCount := 0, command := .answered .ok }
            mail := { s.mail with
              scanOrders := s.mail.scanOrders ++ [.frameCadence], flagRequests := s.mail.flagRequests ++ [.done] } }
        | .sleep =>
          { s with mode := { s.mode with
              part := .waking, panel := .rising, rampEnd := s.now + 20000 * 64, command := .answered .ok } }
        | .off | .starting | .sleeping | .waking | .stopping | .faulted =>
          { s with mode := { s.mode with command := .answered .refusedState } })))

/-- R130: the plans that START accepts, and that the zones of an accepted plan cover every row once; R128, R167: the
values an accepted plan is taken with. -/
def Obligations.PlanIsAcceptedExactlyWhen : Prop :=
  ((∀ bs : List Byte,
     let count := (byteAt bs 7).toNat
     let first := fun i => (halfAt bs (32 + 8 * i)).toNat
     let rows := fun i => (halfAt bs (34 + 8 * i)).toNat
     (planOf bs).isSome = true ↔
       halfAt bs 0 = 1 ∧ 1 ≤ count ∧ count ≤ 4 ∧ (∀ i, i < count → 1 ≤ rows i ∧ rows i ≤ 240) ∧ first 0 = 0 ∧
       (∀ i, i + 1 < count → first (i + 1) = first i + rows i) ∧ ((List.range count).map rows).sum = 240 ∧
       (∀ i, i < count → (byteAt bs (36 + 8 * i)).toNat ≤ 3) ∧
       100 ≤ (halfAt bs 2).toNat ∧ (halfAt bs 2).toNat ≤ 400 ∧ 2 ≤ (byteAt bs 5).toNat ∧ (byteAt bs 5).toNat ≤ 16 ∧
       (byteAt bs 6).toNat ≤ 2) ∧
   (∀ (bs : List Byte) (p : Plan), planOf bs = some p → ∀ row, row < 240 →
     (p.zones.filter fun z => z.firstRow ≤ row && row < z.firstRow + z.rowCount).length = 1)) ∧
  (∀ (bs : List Byte) (p : Plan), planOf bs = some p →
     p.format = 1 ∧ p.period = (halfAt bs 2).toNat ∧ p.holdThreshold = (byteAt bs 4).toNat ∧
     p.holdDivider = (byteAt bs 5).toNat ∧ p.background = halfAt bs 8 ∧ p.faultColour = halfAt bs 10 ∧
     (p.markMode = .off ↔ byteAt bs 6 = 0) ∧ (p.markMode = .commit ↔ byteAt bs 6 = 1) ∧
     (p.markMode = .every ↔ byteAt bs 6 = 2) ∧ p.zones.length = (byteAt bs 7).toNat ∧
     ∀ (i : Nat) (z : Zone), p.zones[i]? = some z →
       z.firstRow = (halfAt bs (32 + 8 * i)).toNat ∧ z.rowCount = (halfAt bs (34 + 8 * i)).toNat ∧
       z.owner.val = (byteAt bs (36 + 8 * i)).toNat ∧ (z.shown = true ↔ byteAt bs (37 + 8 * i) ≠ 0))

/-- R129, R131: the end of START's plan read: STARTING with the plan, or PLAN_INVALID. With no plan read outstanding
nothing changes (log 1). -/
def Obligations.PlanReadEndsStart : Prop :=
  ∀ (bus : BusEvent) (s : State),
    (s.mode.command ≠ .planRead → exec (.planRead bus) s = .next s) ∧
    (s.mode.command = .planRead →
      let mem := Memory.hostWrites s.mem bus.host
      exec (.planRead bus) s = .next
        (match bus.error, planOf (Memory.readBytes mem s.port.exb 64) with
         | none, some p =>
           { s with
             mem := mem
             mode := { s.mode with
               plan := some p, part := .starting, startup := if s.map.fresh then .fillAsked else .fillDone
               command := .answered .ok } }
         | none, none | some _, _ => { s with mem := mem, mode := { s.mode with command := .answered .planInvalid } }))

/-! ## STARTING, the ramps and the waits (Chapter 7) -/

/-- R131, R18, R117: the fill of line 0, the lane setup, the start notice and the ramp up. Out of its turn each leaves
the state as it is (log 1). -/
def Obligations.StartingGoesStepByStep : Prop :=
  ∀ s : State,
    exec (.wholeLineWrite .modeController) s = .next
      (if s.mode.startup = .fillAsked then
        { s with
          store := { s.store with lines := s.store.lines.set 0 (.held (List.replicate 320 s.background) []) }
          mode := { s.mode with startup := .fillDone } }
      else s) ∧
    exec .startingLineFill s = .next
      (if s.mode.startup = .fillDone then
        { s with mode := { s.mode with startup := .lanesAsked }, lanes := { s.lanes with setup := some 0 } }
      else s) ∧
    exec .setupComplete s = .next
      (if s.mail.setupComplete = true ∧ s.mode.startup = .lanesAsked then
        { s with
          mail := { s.mail with setupComplete := false }
          arbiter :=
            { lanes := .ofFn fun l =>
                { credit := (s.lane l).weightInUse, wait := 0, promoted := false, granted := false }
              ring := 3, grant := .none, requestWaiting := s.arbiter.requestWaiting }
          mode := { s.mode with startup := .ramp, panel := .rising, rampEnd := s.now + 20000 * 64 } }
      else s)

/-- R131 step 5, R132, R137 step 3, R138, R140, R141, R142, R144: what the end of a ramp up and of a ramp down does. That
a ramp may end at any moment from its ramp end on is log 3's choice; before it, and with no ramp, nothing changes (log
1). -/
def Obligations.RampsEnd : Prop :=
  (∀ (moment : Nat) (s : State),
     (¬ (s.mode.panel = .rising ∧ s.mode.rampEnd ≤ max s.now moment) → exec (.rampUpEnd moment) s = .next s) ∧
     (s.mode.panel = .rising → s.mode.rampEnd ≤ max s.now moment →
       (s.mode.stopRecorded = true → exec (.rampUpEnd moment) s = .next
         { s with
           now := max s.now moment
           mode := { s.mode with
             panel := .lit, startup := .none, part := .stopping, stopRecorded := false, faultHeld := false
             finishSent := false }
           arbiter := { s.arbiter with requestWaiting := false }
           mail := { s.mail with
             flagRequests := s.mail.flagRequests ++ [.done], stopNotice := true, abortStop := true } }) ∧
       (s.mode.stopRecorded = false → s.mode.faultHeld = true → exec (.rampUpEnd moment) s = .next
         { s with
           now := max s.now moment
           mode := { s.mode with panel := .lit, startup := .none, part := .faulted, faultHeld := false }
           mail := { s.mail with
             flagRequests := s.mail.flagRequests ++ [.done]
             scanOrders := s.mail.scanOrders ++ [if s.mode.part = .waking then .beginBlank else .begin] } }) ∧
       (s.mode.stopRecorded = false → s.mode.faultHeld = false → exec (.rampUpEnd moment) s = .next
         { s with
           now := max s.now moment
           mode := { s.mode with panel := .lit, startup := .none, part := .active, idleCount := 0 }
           mail := { s.mail with
             flagRequests := s.mail.flagRequests ++ [.done]
             scanOrders := s.mail.scanOrders ++ [if s.mode.part = .waking then .beginBlank else .begin] } }))) ∧
  (∀ (moment : Nat) (s : State),
     (¬ (s.mode.panel = .falling ∧ s.mode.rampEnd ≤ max s.now moment) → exec (.rampDownEnd moment) s = .next s) ∧
     (s.mode.panel = .falling → s.mode.rampEnd ≤ max s.now moment →
       (s.mode.part = .sleeping → s.mode.stopRecorded = true → exec (.rampDownEnd moment) s = .next
         { s with
           now := max s.now moment
           mode := { s.mode with panel := .dark, stopRecorded := false, endingsAwaited := true }
           mail := { s.mail with
             flagRequests := s.mail.flagRequests ++ [.done], stopNotice := true, abortStop := true } }) ∧
       (s.mode.part = .sleeping → s.mode.stopRecorded = false → exec (.rampDownEnd moment) s = .next
         { s with
           now := max s.now moment
           mode := { s.mode with panel := .dark, part := .sleep }
           mail := { s.mail with flagRequests := s.mail.flagRequests ++ [.done] } }) ∧
       (s.mode.part = .stopping → exec (.rampDownEnd moment) s = .next
         { s with
           now := max s.now moment
           mode := { s.mode with panel := .dark, part := .off }
           mail := { s.mail with flagRequests := s.mail.flagRequests ++ [.done] } })))

/-- R137, R139, R140: the ends of the waits of SLEEPING and STOPPING. SLEEPING's halt order goes out, and its ramp down
begins with HALT_SCANNING (log 17). That the notices sent have been taken, that the flight notes are clear too, as R95
says of every STOP, and that an order to begin counts as scanning, is the model's reading (log 16, log 18). R141 step 4:
the endings of a STOP in SLEEP are over (log 16). While a wait is not over nothing changes (log 1). -/
def Obligations.WaitsEnd : Prop :=
  (∀ s : State,
     exec .sleepingQuiesced s = .next
       (if s.mode.part = .sleeping ∧ s.mode.panel = .lit ∧ s.mode.haltSent = false ∧ s.engine.state = .idle ∧
           s.commit.ready = [] then
         { s with
           mail := { s.mail with scanOrders := s.mail.scanOrders ++ [.haltScanning] }
           mode := { s.mode with haltSent := true } }
       else s) ∧
     exec .stoppingEngineIdle s = .next
       (if s.mode.part = .stopping ∧ s.mode.panel = .lit ∧ s.mode.finishSent = false ∧ s.engine.state = .idle ∧
           s.mail.abortStop = false ∧
           (s.scan.mode ≠ .still ∨ .begin ∈ s.mail.scanOrders ∨ .beginBlank ∈ s.mail.scanOrders) then
         { s with
           mode := { s.mode with finishSent := true }
           mail := { s.mail with scanOrders := s.mail.scanOrders ++ [.finish] } }
       else s) ∧
     exec .stoppingComplete s = .next
       (if s.mode.part = .stopping ∧ s.mode.panel = .lit ∧ s.scan.mode = .still ∧ s.mail.scanOrders = [] ∧
           s.engine.state = .idle ∧ s.commit.ready = [] ∧ (∀ l, (s.lane l).intake = []) ∧
           (∀ l, (s.lane l).flight = none) ∧ s.mail.stopNotice = false ∧ s.mail.abortStop = false ∧
           s.lanes.job = none then
         { s with mode := { s.mode with panel := .falling, rampEnd := s.now + 10000 * 64 } }
       else s)) ∧
  (∀ s : State,
     exec .sleepStopEndingsDone s = .next
       (if s.mode.endingsAwaited = true ∧ (∀ l, (s.lane l).intake = []) ∧ (∀ l, (s.lane l).flight = none) ∧
           s.mail.stopNotice = false ∧ s.mail.abortStop = false ∧ s.lanes.job = none then
         { s with
           mode := { s.mode with
             part := .off, faultHeld := false, endingsAwaited := false
             command := if s.mode.command = .endings then .answered .ok else s.mode.command }
           mail := { s.mail with flagRequests := s.mail.flagRequests ++ [.done] } }
       else s))

/-- R134, R135, R136: a boundary is evaluated when both of its reports have arrived (log 20); before that nothing
changes (log 1). -/
def Obligations.BoundaryIsEvaluated : Prop :=
  ∀ s : State,
    ((s.mode.pubReports = [] ∨ s.mode.pollReports = []) → exec .boundaryEvaluation s = .next s) ∧
    (∀ pub pubs poll polls, s.mode.pubReports = pub :: pubs → s.mode.pollReports = poll :: polls →
      let isQuiet : Prop := pub.sets = 0 ∧ poll.appended = false ∧ poll.ticketTaken = false
      let m : ModeController := { s.mode with pubReports := pubs, pollReports := polls }
      let mail : Mail := { s.mail with modeBoundary := s.mail.modeBoundary.drop 1 }
      (s.mode.part = .active →
        let count := if pub.sets = 0 ∧ poll.appended = false ∧ poll.ticketTaken = false then min (s.mode.idleCount + 1) 255
          else 0
        ((∃ p, s.mode.plan = some p ∧ p.holdThreshold ≠ 0 ∧ p.holdThreshold ≤ count) ∧ s.engine.state = .idle ∧
            (∀ l, (s.lane l).intake = []) → exec .boundaryEvaluation s = .next
          { s with
            mode := { m with idleCount := count, part := .hold }
            mail := { mail with scanOrders := s.mail.scanOrders ++ [.heldCadence] } }) ∧
        (¬ ((∃ p, s.mode.plan = some p ∧ p.holdThreshold ≠ 0 ∧ p.holdThreshold ≤ count) ∧ s.engine.state = .idle ∧
            (∀ l, (s.lane l).intake = [])) → exec .boundaryEvaluation s = .next
          { s with mode := { m with idleCount := count }, mail := mail })) ∧
      (s.mode.part = .hold → isQuiet → exec .boundaryEvaluation s = .next { s with mode := m, mail := mail }) ∧
      (s.mode.part = .hold → ¬ isQuiet → exec .boundaryEvaluation s = .next
        { s with
          mode := { m with part := .active, idleCount := 0 }
          mail := { mail with scanOrders := s.mail.scanOrders ++ [.frameCadence] } }) ∧
      (s.mode.part ≠ .active → s.mode.part ≠ .hold → exec .boundaryEvaluation s = .next
        { s with mode := m, mail := mail }))

/-- R142: the damage limit report and the recorder failure report, in each part state and condition of the panel; a
STOP carried out in SLEEP and the entry to STOPPING clear fault held. SLEEPING counts as past its wait once its halt
order is sent (log 17). With no report nothing changes (log 1). -/
def Obligations.FaultReportsAct : Prop :=
  (∀ (c : Instr) (s : State) (mail : Mail),
    (c = .damageLimitReport ∧ (∃ n, s.mail.damageLimit = n + 1 ∧ mail = { s.mail with damageLimit := n }) ∨
      c = .recorderFailureReport ∧
        (∃ n, s.mail.recorderFailures = n + 1 ∧ mail = { s.mail with recorderFailures := n })) →
    exec c s = .next
      (match s.mode.part, s.mode.panel, s.mode.haltSent, s.mode.stopRecorded with
       | .active, _, _, _ | .sleeping, .lit, false, false =>
         { s with
           mode := { s.mode with part := .faulted }
           arbiter := { s.arbiter with requestWaiting := false }
           mail := mail }
       | .hold, _, _, _ =>
         { s with
           mode := { s.mode with part := .faulted }
           arbiter := { s.arbiter with requestWaiting := false }
           mail := { mail with scanOrders := s.mail.scanOrders ++ [.frameCadence] } }
       | .sleeping, .lit, false, true =>
         { s with
           mode := { s.mode with
             part := .stopping, stopRecorded := false, faultHeld := false, finishSent := false }
           arbiter := { s.arbiter with requestWaiting := false }
           mail := { mail with stopNotice := true, abortStop := true } }
       | .sleeping, _, _, _ | .sleep, _, _, _ | .starting, _, _, _ | .waking, _, _, _ =>
         { s with mode := { s.mode with faultHeld := true }, mail := mail }
       | .stopping, _, _, _ | .off, _, _, _ | .faulted, _, _, _ => { s with mail := mail })) ∧
  (∀ s : State,
    (s.mail.damageLimit = 0 → exec .damageLimitReport s = .next s) ∧
    (s.mail.recorderFailures = 0 → exec .recorderFailureReport s = .next s)) ∧
  (∀ (c : Instr) (s t : State), exec c s = .next t →
    (s.mode.part ≠ .stopping → t.mode.part = .stopping → t.mode.faultHeld = false) ∧
    (c = .sleepStopEndingsDone → s.mode.part = .sleep → t.mode.part = .off → t.mode.faultHeld = false))

/-! ## The Scan Unit (Chapter 4) -/

/-- R73, R75, R78, R80, R81: the two orders that begin scanning start the first frame at once, in STILL alone (log
35); the cadence orders, finish and halt scanning, in each scan mode; the periods in 1/64 microseconds (log 3). R137,
R144: with SLEEPING's halt order taken the ramp down begins (log 17). An order that is not at the head of the way leaves
the state as it is (log 1). -/
def Obligations.ScanOrdersActByScanMode : Prop :=
  (∀ (c : Instr) (o : ScanOrder) (s : State),
     (c = .beginOrder ∧ o = .begin ∨ c = .beginWithBlankFrame ∧ o = .beginBlank) →
     (∀ rest, s.mail.scanOrders = o :: rest → exec c s = .next
       { s with
         mail := { s.mail with scanOrders := rest }
         scan := if s.scan.mode = .still then
             { s.scan with
               mode := .frame
               blank := s.scan.blank || o == .beginBlank
               frameStart := s.now
               nextDue := s.now + s.period
               row := some 0
               rowPhase :=
                 if s.scan.blank || o == .beginBlank || s.mode.plan.any (fun p => p.hides 0) then .background
                 else .liveRead
               output := .frameMark }
           else s.scan }) ∧
     (s.mail.scanOrders.head? ≠ some o → exec c s = .next s)) ∧
  ((∀ (s : State) (p : Plan), s.mode.plan = some p →
     s.period = p.period * 6400 ∧ s.heldPeriod = p.holdDivider * s.period ∧ 256 * s.rowTime = s.period) ∧
   ∀ (s : State) (rest : List ScanOrder),
     (s.mail.scanOrders = .frameCadence :: rest → exec .frameCadence s = .next
       { s with
         mail := { s.mail with scanOrders := rest }
         scan := if s.scan.mode = .held then { s.scan with mode := .frame, nextDue := s.scan.frameStart + s.period }
           else s.scan }) ∧
     (s.mail.scanOrders = .heldCadence :: rest → exec .heldCadence s = .next
       { s with
         mail := { s.mail with scanOrders := rest }
         scan := if s.scan.mode = .frame then
             { s.scan with mode := .held, nextDue := s.scan.frameStart + s.heldPeriod }
           else s.scan }) ∧
     (s.mail.scanOrders = .finish :: rest → exec .finishOrder s = .next
       { s with
         mail := { s.mail with scanOrders := rest }
         scan := match s.scan.mode with
           | .still => s.scan
           | .frame => { s.scan with finishPending := true }
           | .held =>
             { s.scan with finishPending := true, mode := .frame, nextDue := s.scan.frameStart + s.period } }) ∧
     (s.mail.scanOrders = .haltScanning :: rest → exec .haltScanning s = .next
       { s with
         mail := { s.mail with scanOrders := rest }
         scan := if s.scan.mode = .still then s.scan
           else { s.scan with mode := .still, publicationAwaited := false, blank := false }
         mode := if s.mode.haltSent = true then
             { s.mode with haltSent := false, panel := .falling, rampEnd := s.now + 10000 * 64 }
           else s.mode }) ∧
     (s.mail.scanOrders.head? ≠ some .frameCadence → exec .frameCadence s = .next s) ∧
     (s.mail.scanOrders.head? ≠ some .heldCadence → exec .heldCadence s = .next s) ∧
     (s.mail.scanOrders.head? ≠ some .finish → exec .finishOrder s = .next s) ∧
     (s.mail.scanOrders.head? ≠ some .haltScanning → exec .haltScanning s = .next s))

/-- R73, R74, R81, R86: when a frame that follows a boundary starts, and what the publication report does at the Scan
Unit (log 19). That a frame may start at any later moment is log 3's choice; before its time, and with no report, nothing
changes (log 1). -/
def Obligations.FrameStartsWhenDueAndPublished : Prop :=
  ∀ (moment : Nat) (s : State),
    exec (.frameStart moment) s = .next
      (if s.scan.mode ≠ .still ∧ s.scan.row = none ∧ s.scan.publicationAwaited = false ∧
          s.scan.nextDue ≤ max s.now moment then
        { s with
          now := max s.now moment
          scan := { s.scan with
            frameStart := max s.now moment
            nextDue := max s.now moment + if s.scan.mode = .held then s.heldPeriod else s.period
            row := some 0
            rowPhase := if s.scan.blank || s.mode.plan.any (fun p => p.hides 0) then .background else .liveRead
            output := .frameMark } }
      else s) ∧
    (∀ r rest, s.mail.scanReports = r :: rest → exec .publicationReport s = .next
      { s with
        mail := { s.mail with scanReports := rest }
        scan := { s.scan with publicationAwaited :=
          if r.frame = s.scan.frameCount then false else s.scan.publicationAwaited } }) ∧
    (s.mail.scanReports = [] → exec .publicationReport s = .next s)

/-- R75, R76, R77, R80: a row is output with its values, and the next row begins; a halted scan ends with the row. A
row does not end before its time (log 26), and may end at any later moment (log 3); without a row to output nothing
changes (log 1). R164: in STILL the pins FRM and PCK are low and the data pins hold 0; otherwise they follow what was
sent last (log 32). -/
def Obligations.RowIsOutput : Prop :=
  ∀ (moment row : Nat) (vs : List Half) (s : State),
    ((s.scan.row = none ∨ s.scan.rowPhase = .noRow ∨ s.scan.rowPhase = .liveRead ∨
        ∃ line, s.scan.rowPhase = .lineRead line) → exec (.rowOutput moment) s = .next s) ∧
    (s.scan.row = some row → max s.now moment < s.scan.frameStart + (row + 1) * s.rowTime →
      exec (.rowOutput moment) s = .next s) ∧
    (s.scan.row = some row → s.scan.frameStart + (row + 1) * s.rowTime ≤ max s.now moment →
      (s.scan.rowPhase = .background ∧ vs = List.replicate 320 s.background ∨
        (∃ line, s.scan.rowPhase = .answered line (.values vs)) ∨
        (∃ line newly, s.scan.rowPhase = .answered line (.damaged newly)) ∧ vs = List.replicate 320 s.faultColour) →
      let faults : List (FaultSender × FaultRequest) :=
        match s.scan.rowPhase with
        | .answered line (.damaged true) =>
          [(.scanUnit,
            { code := .lineDamaged, lane := none, address := none, serial := none, row := some row, line := some line,
              frame := some s.scan.frameCount })]
        | _ => []
      (s.scan.mode = .still → exec (.rowOutput moment) s = .next
        { s with
          now := max s.now moment
          scan := { s.scan with output := .row row vs, row := none, rowPhase := .noRow }
          mail := { s.mail with faultRequests := s.mail.faultRequests ++ faults } }) ∧
      (s.scan.mode ≠ .still → row < 239 → exec (.rowOutput moment) s = .next
        { s with
          now := max s.now moment
          scan := { s.scan with
            output := .row row vs
            row := some (row + 1)
            rowPhase := if s.scan.blank || s.mode.plan.any (fun p => p.hides (row + 1)) then .background
              else .liveRead }
          mail := { s.mail with faultRequests := s.mail.faultRequests ++ faults } })) ∧
    (s.scan.mode = .still → s.frameMarkPin = false ∧ s.strobePin = false ∧ s.dataPins = [0]) ∧
    (s.scan.mode ≠ .still →
      (s.frameMarkPin = true ↔ s.scan.output = .frameMark) ∧
      (s.scan.output = .row row vs → s.strobePin = true ∧ s.dataPins = BitVec.ofNat 16 row :: vs) ∧
      ((s.scan.output = .nothing ∨ s.scan.output = .frameMark) → s.strobePin = false ∧ s.dataPins = [0]))

/-- R79, R78, R80: after row 239 the frame count advances by one modulo 2^32 and the notice goes to the four units; a
blank frame is over, and a pending finish stops the scan. The row may end at any moment from its time on (log 3). -/
def Obligations.BoundaryIsRaisedAfterRow239 : Prop :=
  ∀ (moment : Nat) (vs : List Half) (s : State), s.scan.row = some 239 → s.scan.mode ≠ .still →
    s.scan.frameStart + 240 * s.rowTime ≤ max s.now moment →
    (s.scan.rowPhase = .background ∧ vs = List.replicate 320 s.background ∨
      (∃ line, s.scan.rowPhase = .answered line (.values vs)) ∨
      (∃ line newly, s.scan.rowPhase = .answered line (.damaged newly)) ∧ vs = List.replicate 320 s.faultColour) →
    let count := s.scan.frameCount + 1
    let faults : List (FaultSender × FaultRequest) :=
      match s.scan.rowPhase with
      | .answered line (.damaged true) =>
        [(.scanUnit,
          { code := .lineDamaged, lane := none, address := none, serial := none, row := some 239, line := some line,
            frame := some s.scan.frameCount })]
      | _ => []
    count.toNat = (s.scan.frameCount.toNat + 1) % 2 ^ 32 ∧
    exec (.rowOutput moment) s = .next
      { s with
        now := max s.now moment
        scan := { s.scan with
          output := .row 239 vs
          row := none
          rowPhase := .noRow
          publicationAwaited := true
          blank := false
          finishPending := false
          mode := if s.scan.finishPending then .still else s.scan.mode
          frameCount := count }
        mail := { s.mail with
          commitBoundary := s.mail.commitBoundary ++ [count]
          laneBoundary := s.mail.laneBoundary ++ [count]
          arbiterBoundary := s.mail.arbiterBoundary ++ [count]
          modeBoundary := s.mail.modeBoundary ++ [count]
          faultRequests := s.mail.faultRequests ++ faults } }

/-- R58, R83: an applied set joins the tail of the ready queue WAITING, and the engine is IDLE and empty (log 21).
R85, R86, R91: a boundary takes the entries WAITING at that moment, in queue order; with none the publication is
complete at once. That a notice waits while a boundary is in progress, and that without a notice or an append nothing
changes, is log 1's choice. -/
def Obligations.ReadyQueueIsJoinedAndTaken : Prop :=
  (∀ s : State,
     (∀ sl, s.engine.link = .readyAppend → s.engine.slot = some sl → exec .readyAppend s = .next
       { s with
         commit := { s.commit with ready := s.commit.ready ++
           [{ header := sl.header, lane := sl.lane, condition := .waiting, commitFrame := 0, rowsStaged := 0 }] }
         engine := { state := .idle, slot := none, link := .quiet, completionsOwed := 0 } }) ∧
     ((s.engine.link ≠ .readyAppend ∨ s.engine.slot = none) → exec .readyAppend s = .next s)) ∧
  (∀ s : State,
     ((s.mail.commitBoundary = [] ∨ s.commit.inProgress = true) → exec .commitBoundary s = .next s) ∧
     (∀ frame rest, s.mail.commitBoundary = frame :: rest → s.commit.inProgress = false →
       let take : List SetId :=
         (s.commit.ready.filter fun e => e.condition == .waiting).map fun e => ⟨e.lane, e.header.serial⟩
       let taken : State :=
         { s with
           mail := { s.mail with commitBoundary := rest }
           commit := { s.commit with
             inProgress := true, take := take, frame := frame, published := 0, returned := 0, changed := false } }
       (take ≠ [] → exec .commitBoundary s = .next taken) ∧
       (take = [] → exec .commitBoundary s = exec .publicationComplete taken)))

/-- R86, R88, R89, R163: after the last publish claim the release notice and the publication report go out, the commit
mark line pulses as the mark mode gives, and the outcome write of the head entry begins; the pulse ends after 2
microseconds, or at any later moment (log 3). With no boundary in progress or no pulse nothing changes (log 1). -/
def Obligations.PublicationIsReported : Prop :=
  ∀ (moment : Nat) (s : State),
    (¬ (s.commit.inProgress = true ∧ s.commit.take = []) → exec .publicationComplete s = .next s) ∧
    (s.commit.inProgress = true → s.commit.take = [] →
      let report : PublicationReport :=
        { frame := s.commit.frame, sets := s.commit.published, changed := s.commit.changed }
      let pulse : Bool := s.mode.plan.any fun p => p.markMode == .every || p.markMode == .commit && 0 < s.commit.published
      exec .publicationComplete s = .next
        { s with
          commit := { s.commit with
            inProgress := false
            markHigh := if pulse then true else s.commit.markHigh
            markEnd := if pulse then s.now + 2 * 64 else s.commit.markEnd
            outcomeWork :=
              if s.commit.outcomeWork = .idle ∧ (s.commit.ready.head?.any fun e => e.condition == .published) then .writing
              else s.commit.outcomeWork }
          mode := { s.mode with pubReports := s.mode.pubReports ++ [report] }
          mail := { s.mail with
            releaseNotices := s.mail.releaseNotices ++ [s.commit.returned]
            scanReports := s.mail.scanReports ++ [report] } }) ∧
    exec (.commitMarkEnd moment) s = .next
      (if s.commit.markHigh = true ∧ s.commit.markEnd ≤ max s.now moment then
        { s with now := max s.now moment, commit := { s.commit with markHigh := false } }
      else s)

/-- R89, R90, R25: the COMMITTED outcome of the head entry goes to memory in one write, and the end is reported, with the
set's address (log 30). With no such write outstanding nothing changes (log 1). -/
def Obligations.CommittedOutcomeIsWritten : Prop :=
  ∀ (bus : BusEvent) (s : State),
    ((s.commit.outcomeWork ≠ .writing ∨ s.commit.ready = []) → exec (.committedOutcomeWrite bus) s = .next s) ∧
    (∀ e rest, s.commit.outcomeWork = .writing → s.commit.ready = e :: rest →
      exec (.committedOutcomeWrite bus) s = .next
        { s with
          mem := busWriteMemory bus s.mem (e.header.address + 16)
            (wordBytes e.commitFrame ++ [1, 0xFF] ++ halfBytes (BitVec.ofNat 16 e.rowsStaged))
          commit := { s.commit with outcomeWork := .reported }
          mail := { s.mail with
            commitReport := some
              { lane := e.lane, address := e.header.address, serial := e.header.serial, outcome := .committed,
                written := bus.error.isNone } } })

/-! ## The Map Unit and the Line Store (Chapter 1) -/

/-- R5, R11, R75: the live read of the row being scanned and the view read of the row READBACK has reached. A read that
nobody asked for leaves the state as it is (log 1). -/
def Obligations.LiveAndViewReadsNameTheLine : Prop :=
  ∀ s : State,
    (∀ row, s.scan.rowPhase = .liveRead → s.scan.row = some row → exec .liveRead s = .next
      { s with scan := { s.scan with rowPhase := .lineRead (s.map.live.getD row 0) } }) ∧
    ((s.scan.rowPhase ≠ .liveRead ∨ s.scan.row = none) → exec .liveRead s = .next s) ∧
    (∀ row sl, s.engine.link = .viewRead row → s.engine.slot = some sl → exec .viewRead s = .next
      { s with engine := { s.engine with
          link := .viewAnswered row
            (match s.map.staging.getD row none with
             | some e =>
               if e.owner.lane = sl.lane ∧ e.owner.serial = sl.header.serial then e.line else s.map.live.getD row 0
             | none => s.map.live.getD row 0) } }) ∧
    (((∀ row, s.engine.link ≠ .viewRead row) ∨ s.engine.slot = none) → exec .viewRead s = .next s)

/-- R13, R12: the write claim's three answers. In place and no room change nothing; a copy takes the head of the pool
and stages it on the row, and returns no line. -/
def Obligations.WriteClaimCopiesOnWrite : Prop :=
  ∀ (row : Nat) (sl : Slot) (s : State), s.engine.link = .writeClaim row → s.engine.slot = some sl →
    (∀ p, s.map.ownLine sl.setId row = some p → s.map.liveOf p = 0 → s.map.stageOf p = 1 →
      exec .writeClaim s = .next { s with engine := { s.engine with link := .writeAnswered row (.inPlace p) } }) ∧
    ((∀ p, s.map.ownLine sl.setId row = some p → ¬ (s.map.liveOf p = 0 ∧ s.map.stageOf p = 1)) →
      (s.map.pool = [] →
        exec .writeClaim s = .next { s with engine := { s.engine with link := .writeAnswered row .noRoom } }) ∧
      (∀ n rest, s.map.pool = n :: rest → row < 240 → s.map.Consistent →
        (∀ e, s.map.staged row = some e → e.owner = sl.setId) →
        ∃ m : MapUnit,
          exec .writeClaim s = .next
            { s with
              map := m
              engine := { s.engine with link := .writeAnswered row (.copy n (s.map.view sl.setId row)) } } ∧
          m.pool = rest ∧ m.staged row = some ⟨n, sl.setId⟩ ∧ (∀ r, r ≠ row → m.staged r = s.map.staged r) ∧
          m.live = s.map.live ∧ m.damaged = s.map.damaged ∧ m.fresh = s.map.fresh ∧ m.Consistent))

/-- R14: an alias claim on a damaged source stages nothing; on a clean one it stages the line that the source row
showed on every row of the range, allocates nothing and changes no other row. R8, R12, R19: the previous staged lines
that nothing names any more go to the tail of the pool, or of the damaged list if their mark is known, rows ascending.
-/
def Obligations.AliasClaimStagesOneLine : Prop :=
  ∀ (flaws : List (Nat × Flaw)) (sl : Slot) (op : OpRecord) (s : State),
    s.engine.link = .aliasClaim → s.engine.slot = some sl → sl.op = some op →
    let line := s.map.view sl.setId op.sourceRow
    (∀ newly, s.readAnswer line flaws = .damaged newly → exec (.aliasClaim flaws) s = .next
      ((s.serveRead line flaws).setLink (.aliasAnswered (.damaged line newly)))) ∧
    (∀ vs, s.readAnswer line flaws = .values vs → op.top ≤ op.bottom → op.bottom < 240 → op.sourceRow < 240 →
      s.map.Consistent →
      (∀ r e, op.top ≤ r → r ≤ op.bottom → s.map.staged r = some e → e.owner = sl.setId) →
      ∃ m : MapUnit,
        exec (.aliasClaim flaws) s = .next
          ({ s.serveRead line flaws with map := m }.setLink (.aliasAnswered .done)) ∧
        (∀ r, op.top ≤ r → r ≤ op.bottom → m.staged r = some ⟨line, sl.setId⟩) ∧
        (∀ r, (r < op.top ∨ op.bottom < r) → m.staged r = s.map.staged r) ∧
        (let lines := m.linesLeft fun r =>
           if op.top ≤ r ∧ r ≤ op.bottom then ((s.map.staged r).map fun e => e.line).filter fun p => p != line else none
         s.map.GivesBack m (s.serveRead line flaws).markKnown lines) ∧
        m.live = s.map.live ∧ m.fresh = s.map.fresh ∧ m.Consistent)

/-- R15, R43: a shift claim stages on each row of the range the line that the row d further on, modulo the height,
showed; it allocates and returns no line and changes no other row. -/
def Obligations.ShiftClaimRotatesTheRange : Prop :=
  ∀ (sl : Slot) (op : OpRecord) (s : State),
    s.engine.link = .shiftClaim → s.engine.slot = some sl → sl.op = some op →
    op.top ≤ op.bottom → op.bottom < 240 → s.map.Consistent →
    (∀ r e, op.top ≤ r → r ≤ op.bottom → s.map.staged r = some e → e.owner = sl.setId) →
    ∃ m : MapUnit,
      exec .shiftClaim s = .next { s with map := m, engine := { s.engine with link := .shiftAnswered } } ∧
      (∀ r, op.top ≤ r → r ≤ op.bottom → m.staged r = some
        ⟨s.map.view sl.setId (op.top + (((r : Int) - op.top + op.distance) % op.height).toNat), sl.setId⟩) ∧
      (∀ r, (r < op.top ∨ op.bottom < r) → m.staged r = s.map.staged r) ∧
      m.pool = s.map.pool ∧ m.damaged = s.map.damaged ∧ m.live = s.map.live ∧ m.fresh = s.map.fresh ∧ m.Consistent

/-- R16: an unwind claim removes every entry of the set and nothing else, and answers how many entries it removed and
how many lines it returned to the pool. R8, R19: a line that nothing names any more goes to the tail of the pool, or of
the damaged list if its mark is known, in the ascending order of the rows that released them. -/
def Obligations.UnwindClaimRemovesTheSet : Prop :=
  ∀ (sl : Slot) (s : State), s.engine.link = .unwindClaim → s.engine.slot = some sl → s.map.Consistent →
    ∃ m : MapUnit,
      let lines := m.linesLeft fun r => ((s.map.staged r).filter fun e => e.owner == sl.setId).map fun e => e.line
      exec .unwindClaim s = .next
        { s with
          map := m
          engine := { s.engine with
            link := .unwindAnswered
              ((List.range 240).filter fun r => (s.map.staged r).any fun e => e.owner == sl.setId).length
              (lines.filter fun line => !s.markKnown line).length } } ∧
      s.map.GivesBack m s.markKnown lines ∧
      (∀ r, r < 240 → m.staged r =
        if (s.map.staged r).any (fun e => e.owner == sl.setId) then none else s.map.staged r) ∧
      m.live = s.map.live ∧ m.fresh = s.map.fresh ∧ m.Consistent

/-- R17, R18, R85: a publish claim makes the staged line of every row of the set its live line and removes the
entries; the map-fresh flag falls if a live entry changed; the Commit Unit keeps the answer with the entry, now
PUBLISHED (log 33). R8, R19: an old live line that nothing names any more goes to the tail of the pool, or of the damaged
list if its mark is known, in the ascending order of the rows that released them. -/
def Obligations.PublishClaimMakesTheSetLive : Prop :=
  ∀ (set : SetId) (rest : List SetId) (s : State), s.commit.take = set :: rest → s.map.Consistent →
    ∃ m : MapUnit,
      let lines := m.linesLeft fun r =>
        (s.map.ownLine set r).bind fun n => if n = s.map.liveLine r then none else some (s.map.liveLine r)
      exec .publishClaim s = .next
        { s with
          map := m
          commit := { s.commit with
            take := rest
            ready := s.commit.ready.map fun e =>
              if e.lane = set.lane ∧ e.header.serial = set.serial ∧ e.condition = .waiting then
                { e with
                  condition := .published
                  commitFrame := s.commit.frame
                  rowsStaged :=
                    ((List.range 240).filter fun r => (s.map.staged r).any fun x => x.owner == set).length }
              else e
            published := s.commit.published + 1
            returned := s.commit.returned + (lines.filter fun line => !s.markKnown line).length
            changed := s.commit.changed || (List.range 240).any fun r => m.liveLine r != s.map.liveLine r } } ∧
      s.map.GivesBack m s.markKnown lines ∧
      (∀ r, r < 240 → m.liveLine r = (s.map.ownLine set r).getD (s.map.liveLine r)) ∧
      (∀ r, r < 240 → m.staged r = if (s.map.staged r).any (fun e => e.owner == set) then none else s.map.staged r) ∧
      (m.fresh = true ↔ s.map.fresh = true ∧ ∀ r, r < 240 → m.liveLine r = s.map.liveLine r) ∧ m.Consistent

/-- R5: a live map entry changes only by publication or by reset. R79, R162: the frame count rises by one with the
output of the last row, 239, and changes otherwise only at reset, to 0. R144: unless the panel is LIT it does not rise,
in a state whose part state is consistent. -/
def Obligations.LiveMapAndFrameCountChangeOnlyWhen : Prop :=
  (∀ (c : Instr) (s t : State), exec c s = .next t →
     t.map.live = s.map.live ∨ c = .publishClaim ∨ (c.isReset = true ∧ t.map.live = List.replicate 240 0)) ∧
  (∀ (c : Instr) (s t : State), exec c s = .next t →
     t.scan.frameCount = s.scan.frameCount ∨
     ((∃ moment, c = .rowOutput moment) ∧ (∃ row, s.scan.row = some row ∧ 239 ≤ row) ∧ s.scan.mode ≠ .still ∧
       t.scan.frameCount = s.scan.frameCount + 1) ∨
     (c.isReset = true ∧ t.scan.frameCount = 0)) ∧
  (∀ (c : Instr) (s t : State), s.ModeConsistent → s.mode.panel ≠ .lit → exec c s = .next t → c.isReset = false →
     t.scan.frameCount = s.scan.frameCount)

/-- R2, R4, R154: the three answers of a line read and what each leaves: a marked line is not read; a fault that
cannot be corrected marks the line, with the mark notice and, for the seventeenth mark, the damage limit; otherwise
all 320 values are delivered and the faults stay in the store. That a read meets the faults its operand names is log 8's
choice. R10: a mark notice moves a line from wherever it stands in the pool to the tail of the damaged list; without a
notice nothing changes (log 1). R19: the Map Unit's claims know of a mark from its notice on. -/
def Obligations.LineReadAnswersByDamage : Prop :=
  (∀ (n : Nat) (flaws : List (Nat × Flaw)) (s : State), n < 384 →
     let here := flaws.filter fun f => f.1 < 320
     let all := (s.store.line n).flawsOf n ++ here
     (s.store.marked n = true → s.readAnswer n flaws = .damaged false ∧ s.serveRead n flaws = s) ∧
     (s.store.marked n = false → (∃ f ∈ all, f.2 = .uncorrectable) →
       s.readAnswer n flaws = .damaged true ∧
       s.serveRead n flaws =
         { s with
           store :=
             { lines := s.store.lines.set n ((s.store.line n).addFlaws n here)
               marks := s.store.marks.set n true
               markedCount := s.store.markedCount + 1 }
           mail := { s.mail with
             markNotices := s.mail.markNotices ++ [n]
             damageLimit := s.mail.damageLimit + if s.store.markedCount = 16 then 1 else 0
             faultRequests := s.mail.faultRequests ++ if s.store.markedCount = 16 then
                 [(.lineStore,
                   { code := .damageLimit, lane := none, address := none, serial := none, row := none, line := some n,
                     frame := none })]
               else [] } }) ∧
     (s.store.marked n = false → (∀ f ∈ all, f.2 = .single) →
       s.readAnswer n flaws = .values ((s.store.line n).valuesOf n) ∧
       s.serveRead n flaws =
         { s with store := { s.store with lines := s.store.lines.set n ((s.store.line n).addFlaws n here) } })) ∧
  (∀ s : State,
     (s.mail.markNotices = [] → exec .markNotice s = .next s) ∧
     (∀ line rest, s.mail.markNotices = line :: rest → exec .markNotice s = .next
       { s with
         mail := { s.mail with markNotices := rest }
         map := if line ∈ s.map.pool then
             { s.map with pool := s.map.pool.erase line, damaged := s.map.damaged ++ [line] }
           else s.map }) ∧
     (∀ line, s.knownMarks.getD line false = true ↔ s.store.marked line = true ∧ line ∉ s.mail.markNotices))

/-- R1, R2, R3: the engine's and the Scan Unit's line reads, the engine's copy and its span writes: a write stores
fresh values into its columns, keeps the others, and leaves the damage marks. -/
def Obligations.LinesAreReadAndWritten : Prop :=
  ∀ (flaws : List (Nat × Flaw)) (s : State),
    (∀ row base target, s.engine.link = .copyRead row base target → exec (.lineRead .engine flaws) s = .next
      ((s.serveRead base flaws).setLink (.copyReadAnswered row base target (s.readAnswer base flaws)))) ∧
    (∀ row line, s.engine.link = .rowRead row line → exec (.lineRead .engine flaws) s = .next
      ((s.serveRead line flaws).setLink (.rowReadAnswered row line (s.readAnswer line flaws)))) ∧
    (∀ line, s.scan.rowPhase = .lineRead line → exec (.lineRead .scanUnit flaws) s = .next
      { s.serveRead line flaws with
        scan := { s.scan with rowPhase := .answered line (s.readAnswer line flaws) } }) ∧
    (∀ target vs, s.engine.link = .copyWrite target vs → exec (.wholeLineWrite .engine) s = .next
      { s with
        store := { s.store with lines := s.store.lines.set target (.held vs []) }
        engine := { s.engine with link := .copyWritten target } }) ∧
    (∀ span rest, s.engine.link = .spanWrite span rest →
      let old := s.store.line span.line
      exec .spanWrite s = .next
        { s with
          store := { s.store with
            lines := s.store.lines.set span.line
              (.held
                ((old.valuesOf span.line).take span.c0 ++ span.values ++
                  (old.valuesOf span.line).drop (span.c0 + span.values.length))
                ((old.flawsOf span.line).filter fun f => f.1 < span.c0 || span.c0 + span.values.length ≤ f.1)) }
          engine := { s.engine with link := .spanWritten rest } })

/-! ## The Apply Engine (Chapters 2 and 3) -/

/-- R52, R57, R59, R60, R66: the two trailer reads. An equal closing serial goes on; a noted abort cause, a bus error
or another serial ends the set, at apply start without an unwind claim (log 24). A trailer read that nobody asked for
leaves the state as it is (log 1). -/
def Obligations.TrailerReadsCompareTheSerial : Prop :=
  ∀ (bus : BusEvent) (s : State),
    let mem := Memory.hostWrites s.mem bus.host
    let t : State := { s with mem := mem }
    (s.engine.link ≠ .trailerStart → exec (.trailerReadStart bus) s = .next s) ∧
    (s.engine.link ≠ .trailerEnd → exec (.trailerReadEnd bus) s = .next s) ∧
    ∀ sl : Slot, s.engine.slot = some sl →
      let closing :=
        halfAt (Memory.readBytes mem (sl.header.address + BitVec.ofNat 32 (32 + 16 * sl.header.opCount.toNat)) 16) 0
      let ended := fun (link : EngineLink) (o : SetOutcome) =>
        ({ t with engine := { s.engine with
            state := .applying, slot := some { sl with progress := .none, final := some ⟨o, none, 0⟩ }, link := link } }
          : State)
      (s.engine.link = .trailerStart →
        (∀ c, sl.abortCause = some c → exec (.trailerReadStart bus) s = .next (ended .outcomeWrite c.outcome)) ∧
        (sl.abortCause = none → bus.error ≠ none →
          exec (.trailerReadStart bus) s = .next (ended .outcomeWrite .transferFault)) ∧
        (sl.abortCause = none → bus.error = none → closing ≠ sl.header.serial →
          exec (.trailerReadStart bus) s = .next (ended .outcomeWrite .torn)) ∧
        (sl.abortCause = none → bus.error = none → closing = sl.header.serial →
          exec (.trailerReadStart bus) s = .next
            { t with engine := { s.engine with
                link := if sl.header.opCount = 0 then .trailerEnd else .opRead } })) ∧
      (s.engine.link = .trailerEnd →
        (∀ c, sl.abortCause = some c → exec (.trailerReadEnd bus) s = .next (ended .unwindClaim c.outcome)) ∧
        (sl.abortCause = none → bus.error ≠ none →
          exec (.trailerReadEnd bus) s = .next (ended .unwindClaim .transferFault)) ∧
        (sl.abortCause = none → bus.error = none → closing ≠ sl.header.serial →
          exec (.trailerReadEnd bus) s = .next (ended .unwindClaim .torn)) ∧
        (sl.abortCause = none → bus.error = none → closing = sl.header.serial →
          exec (.trailerReadEnd bus) s = .next { t with engine := { s.engine with link := .readyAppend } }))

/-- R30, R32, R33, R34, R37, R42, R44, R46: the checks of an op: BAD_OP if the kind, the window or the check
particular to the kind fails, otherwise ZONE_VIOLATION if a row lies outside the lane's zones. -/
def Obligations.OpChecksDecideTheOutcome : Prop :=
  ∀ (op : OpRecord) (plan : Option Plan) (lane : Lane),
    let kind := op.kind.toNat
    let rows : Prop := op.row0.toNat ≤ op.row1.toNat ∧ op.row1.toNat ≤ 239
    let columns : Prop := op.col0.toNat ≤ op.col1.toNat ∧ op.col1.toNat ≤ 319
    let w := op.col1.toNat - op.col0.toNat + 1
    let h := op.row1.toNat - op.row0.toNat + 1
    let strideFits := fun width : Nat => op.arg14.toNat % 2 = 0 ∧ 2 * width ≤ op.arg14.toNat
    let good : Prop :=
      1 ≤ kind ∧ kind ≤ 5 ∧ rows ∧ (kind = 1 ∨ kind = 2 ∨ kind = 5 → columns) ∧
      (kind = 2 → op.arg.toNat ≤ 7 ∧ strideFits (if op.arg.getLsbD 2 then h else w)) ∧
      (kind = 3 → op.arg10.toInt ≠ 0 ∧ op.arg10.toInt.natAbs < h) ∧
      (kind = 4 → op.arg10.toNat ≤ 239) ∧
      (kind = 5 → strideFits w)
    let zones : Prop :=
      kind = 5 ∨ ∃ p, plan = some p ∧
        ∀ r, op.row0.toNat ≤ r → r ≤ op.row1.toNat → ∃ z, p.zoneOf r = some z ∧ z.owner = lane
    (op.check plan lane = .error .badOp ↔ ¬ good) ∧
    (op.check plan lane = .error .zoneViolation ↔ good ∧ ¬ zones) ∧
    ((∃ k, op.check plan lane = .ok k ∧ op.opKind = some k) ↔ good ∧ zones)

/-- R53, R31, R60, R66: the op record is read, kept and checked; an op that passes sends its first request, one that
fails ends the set with its index. A record read that nobody asked for leaves the state as it is (log 1). -/
def Obligations.OpRecordIsReadAndBegun : Prop :=
  ∀ (bus : BusEvent) (s : State),
    (s.engine.link ≠ .opRead → exec (.opRecordRead bus) s = .next s) ∧
    ∀ sl : Slot, s.engine.link = .opRead → s.engine.slot = some sl →
      let mem := Memory.hostWrites s.mem bus.host
      let op :=
        opRecordOf (Memory.readBytes mem (sl.header.address + BitVec.ofNat 32 (32 + 16 * sl.opIndex)) 16)
      let ended := fun (sl' : Slot) (o : SetOutcome) (index : Option Nat) =>
        ({ s with
            mem := mem
            engine := { s.engine with
              state := .applying, slot := some { sl' with progress := .none, final := some ⟨o, index, 0⟩ }
              link := .unwindClaim } } : State)
      (∀ c, sl.abortCause = some c → exec (.opRecordRead bus) s = .next (ended sl c.outcome none)) ∧
      (sl.abortCause = none → bus.error ≠ none →
        exec (.opRecordRead bus) s = .next (ended sl .transferFault (some sl.opIndex))) ∧
      (∀ o, sl.abortCause = none → bus.error = none → op.check s.mode.plan sl.lane = .error o →
        exec (.opRecordRead bus) s = .next (ended { sl with op := some op } o (some sl.opIndex))) ∧
      (∀ k, sl.abortCause = none → bus.error = none → op.check s.mode.plan sl.lane = .ok k →
        exec (.opRecordRead bus) s = .next
          { s with
            mem := mem
            engine := { s.engine with
              slot := some { sl with
                op := some op
                progress := match k with
                  | .fill => .fill op.row0.toNat
                  | .blit => .blitClaim op.row0.toNat
                  | .readback => .readback op.row0.toNat
                  | .shift | .aliasRows => .none
                named := [] }
              link := match k with
                | .fill | .blit => .writeClaim op.row0.toNat
                | .shift => .shiftClaim
                | .aliasRows => .aliasClaim
                | .readback => .viewRead op.row0.toNat } })

/-- R35, R36, R39, R53, R54, R61, R66: what the engine does with the answer to a write claim and with the end of a
line write: starve, copy, fill the row, name the line of a BLIT, go on to the next span, row, source row or op. -/
def Obligations.RowsAreClaimedAndWritten : Prop :=
  ∀ (sl : Slot) (op : OpRecord) (s : State), s.engine.slot = some sl → sl.op = some op →
    let put := fun (sl' : Slot) (link : EngineLink) =>
      ({ s with engine := { s.engine with slot := some sl', link := link } } : State)
    let opDone := put { sl with opIndex := sl.opIndex + 1, progress := .none, named := [] }
      (if sl.opIndex + 1 < sl.header.opCount.toNat then .opRead else .trailerEnd)
    (∀ c command, sl.abortCause = some c →
      (command = .writeClaimAnswer ∧ (∃ row answer, s.engine.link = .writeAnswered row answer) ∨
        command = .engineLineWriteDone ∧
          ((∃ line, s.engine.link = .copyWritten line) ∨ ∃ rest, s.engine.link = .spanWritten rest)) →
      exec command s = .next
        { s with engine := { s.engine with
            state := .applying, slot := some { sl with progress := .none, final := some ⟨c.outcome, none, 0⟩ }
            link := .unwindClaim } }) ∧
    (sl.abortCause = none →
      (∀ row, s.engine.link = .writeAnswered row .noRoom → exec .writeClaimAnswer s = .next
        { s with engine := { s.engine with state := .starved, link := .quiet } }) ∧
      (∀ row line base, s.engine.link = .writeAnswered row (.copy line base) → exec .writeClaimAnswer s = .next
        { s with engine := { s.engine with link := .copyRead row base line } }) ∧
      (∀ command line,
        (command = .writeClaimAnswer ∧ (∃ row, s.engine.link = .writeAnswered row (.inPlace line)) ∨
          command = .engineLineWriteDone ∧ s.engine.link = .copyWritten line) →
        (∀ row, sl.progress = .fill row → exec command s = .next
          (put sl (.spanWrite ⟨line, op.left, List.replicate op.width op.colour⟩ []))) ∧
        (∀ row, sl.progress = .blitClaim row → row < op.bottom → exec command s = .next
          (put { sl with progress := .blitClaim (row + 1), named := sl.named ++ [line] } (.writeClaim (row + 1)))) ∧
        (∀ row, sl.progress = .blitClaim row → op.bottom ≤ row → exec command s = .next
          (put { sl with progress := .blitTransfer 0, named := sl.named ++ [line] } (.sourceRead 0)))) ∧
      (∀ span rest, s.engine.link = .spanWritten (span :: rest) → exec .engineLineWriteDone s = .next
        { s with engine := { s.engine with link := .spanWrite span rest } }) ∧
      (s.engine.link = .spanWritten [] →
        (∀ row, sl.progress = .fill row → exec .engineLineWriteDone s = .next
          (if row < op.bottom then put { sl with progress := .fill (row + 1) } (.writeClaim (row + 1)) else opDone)) ∧
        (∀ y, sl.progress = .blitTransfer y → exec .engineLineWriteDone s = .next
          (if y + 1 < op.sourceHeight then put { sl with progress := .blitTransfer (y + 1) } (.sourceRead (y + 1))
          else opDone))))

/-- R35, R43, R45, R47, R53, R56, R66: what the engine does with clean answers of line reads, alias and shift claims
and view reads, and with damage: a new mark asks for a fault entry, and the set ends STORE_ERROR or with its noted
cause. -/
def Obligations.EngineActsOnAnswers : Prop :=
  ∀ (sl : Slot) (op : OpRecord) (s : State), s.engine.slot = some sl → sl.op = some op →
    let ended := fun (faults : List (FaultSender × FaultRequest)) (o : SetOutcome) (index : Option Nat) =>
      ({ s with
          mail := { s.mail with faultRequests := s.mail.faultRequests ++ faults }
          engine := { s.engine with
            state := .applying, slot := some { sl with progress := .none, final := some ⟨o, index, 0⟩ }
            link := .unwindClaim } } : State)
    let opDone : State :=
      { s with engine := { s.engine with
          slot := some { sl with opIndex := sl.opIndex + 1, progress := .none, named := [] }
          link := if sl.opIndex + 1 < sl.header.opCount.toNat then .opRead else .trailerEnd } }
    (∀ row base target vs, s.engine.link = .copyReadAnswered row base target (.values vs) →
      exec .engineLineReadAnswer s = .next
        (match sl.abortCause with
         | some c => ended [] c.outcome none
         | none => { s with engine := { s.engine with link := .copyWrite target vs } })) ∧
    (∀ row line vs, s.engine.link = .rowReadAnswered row line (.values vs) →
      exec .engineLineReadAnswer s = .next
        (match sl.abortCause with
         | some c => ended [] c.outcome none
         | none =>
           { s with engine := { s.engine with
               link := .readbackWrite row (((vs.drop op.left).take op.width).flatMap halfBytes) } })) ∧
    (s.engine.link = .aliasAnswered .done → exec .aliasClaimAnswer s = .next
      (match sl.abortCause with
       | some c => ended [] c.outcome none
       | none => opDone)) ∧
    (s.engine.link = .shiftAnswered → exec .shiftClaimAnswer s = .next
      (match sl.abortCause with
       | some c => ended [] c.outcome none
       | none => opDone)) ∧
    (∀ row line, s.engine.link = .viewAnswered row line → exec .viewReadAnswer s = .next
      (match sl.abortCause with
       | some c => ended [] c.outcome none
       | none => { s with engine := { s.engine with link := .rowRead row line } })) ∧
    (∀ command row line newly,
      (command = .engineLineReadAnswer ∧ (∃ target, s.engine.link = .copyReadAnswered row line target (.damaged newly)) ∨
        command = .engineLineReadAnswer ∧ s.engine.link = .rowReadAnswered row line (.damaged newly) ∨
        command = .aliasClaimAnswer ∧ s.engine.link = .aliasAnswered (.damaged line newly) ∧ row = op.sourceRow) →
      exec command s = .next
        (ended
          (if newly then
            [(.engine,
              { code := .lineDamaged, lane := some sl.lane, address := some sl.header.address,
                serial := some sl.header.serial, row := some row, line := some line, frame := none })]
          else [])
          (match sl.abortCause with
           | some c => c.outcome
           | none => .storeError)
          (match sl.abortCause with
           | some _ => none
           | none => some sl.opIndex)))

/-- R38: each pixel of a BLIT's window receives the value its orientation names, every source value lands in one
pixel, and the writes of a source row put each of its values there, once, and nothing outside the window. -/
def Obligations.BlitOrientationPlacesEachValue : Prop :=
  ∀ (op : OpRecord) (named : List Nat), named.length = op.height →
    let a := fun i : Nat => if op.mirrorColumns then op.width - 1 - i else i
    let b := fun j : Nat => if op.mirrorRows then op.height - 1 - j else j
    let x := fun i j : Nat => if op.exchange then b j else a i
    let y := fun i j : Nat => if op.exchange then a i else b j
    (op.sourceWidth = if op.exchange then op.height else op.width) ∧
    (op.sourceHeight = if op.exchange then op.width else op.height) ∧
    (op.arg.toNat ≤ 7 →
      (op.mirrorColumns = true ↔ op.arg.toNat % 2 = 1) ∧ (op.mirrorRows = true ↔ op.arg.toNat / 2 % 2 = 1) ∧
      (op.exchange = true ↔ 4 ≤ op.arg.toNat)) ∧
    (∀ i j, i < op.width → j < op.height →
      x i j < op.sourceWidth ∧ y i j < op.sourceHeight ∧
      (∀ vs : List Half, vs.length = op.sourceWidth →
        ∃ span ∈ blitSpans op named (y i j) vs,
          span.line = named.getD j 0 ∧ span.c0 ≤ op.left + i ∧ span.values[op.left + i - span.c0]? = vs[x i j]?) ∧
      (∀ i' j', i' < op.width → j' < op.height → x i j = x i' j' → y i j = y i' j' → i = i' ∧ j = j')) ∧
    (∀ u v, u < op.sourceWidth → v < op.sourceHeight → ∃ i j, i < op.width ∧ j < op.height ∧ x i j = u ∧ y i j = v) ∧
    (∀ (v : Nat) (vs : List Half), v < op.sourceHeight → vs.length = op.sourceWidth →
      ((blitSpans op named v vs).map fun span => span.values.length).sum = op.sourceWidth ∧
      ∀ span ∈ blitSpans op named v vs, ∀ k c, span.values[k]? = some c →
        ∃ i j, i < op.width ∧ j < op.height ∧ y i j = v ∧ vs[x i j]? = some c ∧ span.line = named.getD j 0 ∧
          span.c0 + k = op.left + i)

/-- R40, R47, R55, R60, R66: a source row read goes to span writes; a readback row write puts the row in memory and
goes on; a bus error ends the set TRANSFER_FAULT, a noted abort cause with that cause. -/
def Obligations.RowTransfersMoveTheData : Prop :=
  ∀ (bus : BusEvent) (sl : Slot) (op : OpRecord) (s : State), s.engine.slot = some sl → sl.op = some op →
    let ended := fun (mem : List Host.Cell) (o : SetOutcome) (index : Option Nat) =>
      ({ s with
          mem := mem
          engine := { s.engine with
            state := .applying, slot := some { sl with progress := .none, final := some ⟨o, index, 0⟩ }
            link := .unwindClaim } } : State)
    (∀ y, s.engine.link = .sourceRead y →
      let mem := Memory.hostWrites s.mem bus.host
      let bytes := Memory.readBytes mem (op.address + BitVec.ofNat 32 (y * op.arg14.toNat)) (2 * op.sourceWidth)
      (∀ c, sl.abortCause = some c → exec (.sourceRowRead bus) s = .next (ended mem c.outcome none)) ∧
      (sl.abortCause = none → bus.error ≠ none →
        exec (.sourceRowRead bus) s = .next (ended mem .transferFault (some sl.opIndex))) ∧
      (sl.abortCause = none → bus.error = none → ∃ span rest,
        blitSpans op sl.named y ((List.range op.sourceWidth).map fun x => byteAt bytes (2 * x + 1) ++ byteAt bytes (2 * x)) =
          span :: rest ∧
        exec (.sourceRowRead bus) s = .next
          { s with mem := mem, engine := { s.engine with link := .spanWrite span rest } })) ∧
    (∀ row bytes, s.engine.link = .readbackWrite row bytes →
      let mem := busWriteMemory bus s.mem (op.address + BitVec.ofNat 32 ((row - op.top) * op.arg14.toNat)) bytes
      (∀ c, sl.abortCause = some c → exec (.readbackRowWrite bus) s = .next (ended mem c.outcome none)) ∧
      (sl.abortCause = none → bus.error ≠ none →
        exec (.readbackRowWrite bus) s = .next (ended mem .transferFault (some sl.opIndex))) ∧
      (sl.abortCause = none → bus.error = none → row < op.bottom → exec (.readbackRowWrite bus) s = .next
        { s with
          mem := mem
          engine := { s.engine with
            slot := some { sl with progress := .readback (row + 1) }, link := .viewRead (row + 1) } }) ∧
      (sl.abortCause = none → bus.error = none → op.bottom ≤ row → exec (.readbackRowWrite bus) s = .next
        { s with
          mem := mem
          engine := { s.engine with
            slot := some { sl with opIndex := sl.opIndex + 1, progress := .none, named := [] }
            link := if sl.opIndex + 1 < sl.header.opCount.toNat then .opRead else .trailerEnd } }))

/-- R59, R60, R25, R68: the unwind's answer fills in rows staged; then the four outcome fields go to memory in one
write, the end is reported, with the set's address (log 30), then the completions owed, and the engine is IDLE and
empty. -/
def Obligations.AbortIsWrittenAndReported : Prop :=
  ∀ (sl : Slot) (f : FinalFigures) (s : State), s.engine.slot = some sl → sl.final = some f →
    (∀ removed returned, s.engine.link = .unwindAnswered removed returned → exec .unwindAnswer s = .next
      { s with engine := { s.engine with
          slot := some { sl with final := some ⟨f.outcome, f.failedOp, removed⟩ }, link := .outcomeWrite } }) ∧
    (∀ bus : BusEvent, s.engine.link = .outcomeWrite → exec (.abortOutcomeWrite bus) s = .next
      { s with
        mem := busWriteMemory bus s.mem (sl.header.address + 16)
          (wordBytes sl.fetchedFrame ++ [BitVec.ofNat 8 f.outcome.code, BitVec.ofNat 8 (f.failedOp.getD 0xFF)] ++
            halfBytes (BitVec.ofNat 16 f.rowsStaged))
        engine := { state := .idle, slot := none, link := .quiet, completionsOwed := 0 }
        mail := { s.mail with
          engineReports := s.mail.engineReports ++
            [.ended
              { lane := sl.lane, address := sl.header.address, serial := sl.header.serial, outcome := f.outcome,
                written := bus.error.isNone }] ++
            List.replicate s.engine.completionsOwed (.completion sl.lane) } })

/-- R62, R63, R65, R67, R68, R69: a release notice resumes or ends a starved set and is discarded otherwise; an abort
request for STOP or for a lane aborts the set at once, notes its cause, or finds nothing to do. Without a notice or a
request nothing changes (log 1). -/
def Obligations.NoticesReachTheSetInFlight : Prop :=
  ∀ s : State,
    let request := fun (t : State) (sl : Slot) (c : AbortCause) =>
      (if sl.final ≠ none ∨ sl.abortCause ≠ none then t
      else if s.engine.link = .quiet ∨ s.engine.link = .readyAppend then
        { t with engine := { t.engine with
            state := .applying, slot := some { sl with progress := .none, final := some ⟨c.outcome, none, 0⟩ }
            link := .unwindClaim } }
      else { t with engine := { t.engine with slot := some { sl with abortCause := some c } } } : State)
    (s.mail.releaseNotices = [] → exec .releaseNotice s = .next s) ∧
    (∀ lines rest, s.mail.releaseNotices = lines :: rest →
      let t : State := { s with mail := { s.mail with releaseNotices := rest } }
      ((s.engine.state ≠ .starved ∨ s.engine.slot = none) → exec .releaseNotice s = .next t) ∧
      (∀ sl, s.engine.state = .starved → s.engine.slot = some sl →
        (lines = 0 → exec .releaseNotice s = .next
          { t with engine := { s.engine with
              state := .applying
              slot := some { sl with progress := .none, final := some ⟨.noRoom, some sl.opIndex, 0⟩ }
              link := .unwindClaim } }) ∧
        (∀ row, 0 < lines → (sl.progress = .fill row ∨ sl.progress = .blitClaim row) →
          exec .releaseNotice s = .next
            { t with engine := { s.engine with state := .applying, link := .writeClaim row } }))) ∧
    (s.mail.abortStop = false → exec .abortRequestStop s = .next s) ∧
    (s.mail.abortStop = true →
      let t : State := { s with mail := { s.mail with abortStop := false } }
      (s.engine.slot = none → exec .abortRequestStop s = .next t) ∧
      (∀ sl, s.engine.slot = some sl → exec .abortRequestStop s = .next (request t sl .stopped))) ∧
    (s.mail.abortLanes = [] → exec .abortRequestLane s = .next s) ∧
    (∀ l rest, s.mail.abortLanes = l :: rest →
      ((∀ sl, s.engine.slot = some sl → sl.lane ≠ l) → exec .abortRequestLane s = .next
        { s with mail := { s.mail with
            abortLanes := rest, engineReports := s.mail.engineReports ++ [.completion l] } }) ∧
      (∀ sl, s.engine.slot = some sl → sl.lane = l → exec .abortRequestLane s = .next
        (request
          { s with
            mail := { s.mail with abortLanes := rest }
            engine := { s.engine with completionsOwed := s.engine.completionsOwed + 1 } } sl .dropped)))

/-! ## The Grant Arbiter (Chapter 6) -/

/-- R118: the class, the weight in use and the relax threshold. -/
def Obligations.ClassAndWeightAreReadAsGiven : Prop :=
  (∀ bs : List Byte,
    ((laneRecordOf bs).laneClass = .urgent ↔ byteAt bs 9 = 1) ∧
    ((laneRecordOf bs).laneClass = .normal ↔ byteAt bs 9 ≠ 1) ∧
    (laneRecordOf bs).weight = byteAt bs 10 ∧ (laneRecordOf bs).relax = byteAt bs 11) ∧
  (∀ u : LaneUnit,
    (1 ≤ u.weight.toNat → u.weight.toNat ≤ 15 → u.weightInUse = u.weight.toNat) ∧
    (u.weight.toNat = 0 → u.weightInUse = 1) ∧ (15 < u.weight.toNat → u.weightInUse = 15) ∧
    1 ≤ u.weightInUse ∧ u.weightInUse ≤ 15 ∧ u.setUpFailed.weightInUse = 1) ∧
  (∀ (a : ArbiterLane) (candidate : Bool), (a.age candidate 0).promoted = a.promoted)

/-- R103, R119, R120, R122, R51: the engine's request, an eligibility report and a refused grant each lead to a
selection when the request waits, no grant is outstanding and a lane is a candidate: the first upper-class candidate
in ring order, else the first with credit, else the first after a new round. Without their occasion GRANT_REQUEST and
ELIGIBILITY_REPORT change nothing (log 1). -/
def Obligations.SelectionGoesByClassCreditAndRing : Prop :=
  ∀ s : State,
    let place := fun l : Lane => (l.val + 3 - s.arbiter.ring.val) % 4
    let upper := fun l : Lane => (s.lane l).laneClass = .urgent ∨ (s.arbiter.lanes.get l).promoted = true
    let asked : Prop := s.arbiter.requestWaiting = true ∧ s.arbiter.grant = .none
    (∀ l, s.candidate l = true ↔
      (s.mode.part = .active ∨ s.mode.part = .hold) ∧ (s.lane l).state = .running ∧ (s.lane l).flight = none ∧
      ∃ e rest, (s.lane l).intake = e :: rest ∧ e.mark = .ordinary) ∧
    (¬ asked → s.trySelect = s) ∧
    ((∀ l, s.candidate l = false) → s.trySelect = s) ∧
    (∀ l, asked → s.candidate l = true → upper l →
      (∀ k, s.candidate k = true → upper k → place l ≤ place k) →
      s.trySelect = { s with arbiter := { s.arbiter with grant := .sent l false } }) ∧
    (∀ l, asked → s.candidate l = true → (∀ k, s.candidate k = true → ¬ upper k) →
      0 < (s.arbiter.lanes.get l).credit →
      (∀ k, s.candidate k = true → 0 < (s.arbiter.lanes.get k).credit → place l ≤ place k) →
      s.trySelect = { s with arbiter := { s.arbiter with grant := .sent l true } }) ∧
    (∀ l, asked → s.candidate l = true → (∀ k, s.candidate k = true → ¬ upper k) →
      (∀ k, s.candidate k = true → (s.arbiter.lanes.get k).credit = 0) →
      (∀ k, s.candidate k = true → place l ≤ place k) →
      s.trySelect =
        { s with arbiter := { s.arbiter with
            lanes := .ofFn fun k => { s.arbiter.lanes.get k with credit := (s.lane k).weightInUse }
            grant := .sent l true } }) ∧
    exec .grantRequest s = .next
      (if s.engine.state = .idle ∧ (s.mode.part = .active ∨ s.mode.part = .hold) ∧
          s.arbiter.requestWaiting = false then
        ({ s with arbiter := { s.arbiter with requestWaiting := true } } : State).trySelect
      else s) ∧
    (s.mail.eligible = [] → exec .eligibilityReport s = .next s) ∧
    (∀ l rest, s.mail.eligible = l :: rest →
      exec .eligibilityReport s = .next ({ s with mail := { s.mail with eligible := rest } } : State).trySelect) ∧
    (∀ l spends, s.arbiter.grant = .answered l spends false →
      exec .grantAnswer s = .next ({ s with arbiter := { s.arbiter with grant := .none } } : State).trySelect)

/-- R51, R103, R121, R122: a grant taken moves the intake head into the engine and sets the flight note, and its
answer updates the lane's values; a refused grant changes nothing but the grant. The grant waits while the Lane
Service has another event in hand or the engine is not IDLE (log 13, log 23); with no grant sent nothing changes (log
1). -/
def Obligations.GrantIsTakenOrRefused : Prop :=
  ∀ s : State,
    (∀ l spends, s.arbiter.grant = .sent l spends → s.lanes.agenda = [] → s.engine.state = .idle →
      (∀ e rest, s.candidate l = true → (s.lane l).intake = e :: rest → exec .grant s = .next
        { s with
          lanes := { s.lanes with
            lanes := s.lanes.lanes.set l
              { s.lane l with intake := rest, flight := some ⟨e.header.serial, e.header.notify⟩ } }
          engine :=
            { state := .applying
              slot := some
                { lane := l, header := e.header, fetchedFrame := e.commitFrame, opIndex := 0, op := none,
                  progress := .none, named := [], abortCause := none, final := none }
              link := .trailerStart, completionsOwed := 0 }
          arbiter := { s.arbiter with grant := .answered l spends true, requestWaiting := false } }) ∧
      (s.candidate l = false → exec .grant s = .next
        { s with arbiter := { s.arbiter with grant := .answered l spends false } })) ∧
    (((∀ l spends, s.arbiter.grant ≠ .sent l spends) ∨ s.lanes.agenda ≠ [] ∨ s.engine.state ≠ .idle) →
      exec .grant s = .next s) ∧
    (∀ l spends, s.arbiter.grant = .answered l spends true → exec .grantAnswer s = .next
      { s with arbiter := { s.arbiter with
          grant := .none
          ring := l
          lanes := s.arbiter.lanes.set l
            { credit := (s.arbiter.lanes.get l).credit - spends.toNat, wait := 0, promoted := false
              granted := true } } })

/-- R124, R123: a boundary at the arbiter ages every candidate that was not granted since the boundary before, and
clears every granted-in-period flag; nothing else changes and no selection is made. The clause on no notice, that
nothing changes, is the model's choice (log 1) and no part of the rule. -/
def Obligations.BoundaryAgesTheCandidates : Prop :=
  ∀ s : State,
    (s.mail.arbiterBoundary = [] → exec .arbiterBoundary s = .next s) ∧
    (∀ frame rest, s.mail.arbiterBoundary = frame :: rest → exec .arbiterBoundary s = .next
      { s with
        mail := { s.mail with arbiterBoundary := rest }
        arbiter := { s.arbiter with
          lanes := .ofFn fun l =>
            let a := s.arbiter.lanes.get l
            let aged := s.candidate l && !a.granted
            let count := if aged then min (a.wait + 1) (max a.wait 255) else a.wait
            let relax := (s.lane l).relax.toNat
            { credit := a.credit
              wait := count
              promoted := a.promoted || aged && relax != 0 && relax ≤ count
              granted := false } } }) ∧
    (s.mode.part ≠ .active → s.mode.part ≠ .hold → ∀ l, s.candidate l = false)

/-! ## The Fault Recorder (Chapter 8) -/

/-- R149, R150: a sender's oldest request is stamped and joins the queue, or is discarded with OVERFLOW; with no
request in hand the head is taken and its search begins, or, while table full is set, every request is discarded (log
25). With no request of the sender nothing changes (log 1). -/
def Obligations.FaultRequestIsStampedAndQueued : Prop :=
  ∀ (sender : FaultSender) (s : State),
    ((∀ r, (sender, r) ∉ s.mail.faultRequests) → exec (.faultRequest sender) s = .next s) ∧
    (∀ before r after, s.mail.faultRequests = before ++ (sender, r) :: after → (∀ r', (sender, r') ∉ before) →
      let stamped : StampedFault :=
        { request := r, part := s.mode.part, frame := r.frame.getD s.scan.frameCount }
      let mail : Mail := { s.mail with faultRequests := before ++ after }
      (8 ≤ s.recorder.queue.length → exec (.faultRequest sender) s = .next
        { s with mail := { mail with flagRequests := s.mail.flagRequests ++ [.overflow] } }) ∧
      (∀ f, s.recorder.queue.length < 8 → s.recorder.inHand = some f → exec (.faultRequest sender) s = .next
        { s with mail := mail, recorder := { s.recorder with queue := s.recorder.queue ++ [stamped] } }) ∧
      (∀ f more, s.recorder.queue.length < 8 → s.recorder.inHand = none → s.recorder.tableFull = false →
        s.recorder.queue ++ [stamped] = f :: more → exec (.faultRequest sender) s = .next
          { s with
            mail := mail
            recorder := { s.recorder with
              queue := more, inHand := some f
              work := .searching s.port.exb ((s.recorder.position + 1) % 16) 0 } }) ∧
      (s.recorder.queue.length < 8 → s.recorder.inHand = none → s.recorder.tableFull = true →
        exec (.faultRequest sender) s = .next
          { s with
            mail := { mail with
              flagRequests := s.mail.flagRequests ++ List.replicate (s.recorder.queue.length + 1) .overflow }
            recorder := { s.recorder with queue := [] } }))

/-- R147, R150, R151, R152, R153, R171, R172: the search of the fault table, the entry write, with table full clear or
set, a recorder failure, and the clearing of table full. Without a clearing message nothing changes (log 1). A table past
the top of the address space goes on at address 0 (log 46). -/
def Obligations.FaultEntryIsSearchedAndWritten : Prop :=
  ∀ (bus : BusEvent) (s : State),
    let next : FaultRecorder × List Flag :=
      match s.recorder.queue, s.recorder.tableFull with
      | [], _ => ({ s.recorder with inHand := none, work := .idle }, [])
      | f :: more, false =>
        ({ s.recorder with
            queue := more, inHand := some f
            work := .searching s.port.exb ((s.recorder.position + 1) % 16) 0 }, [])
      | q, true => ({ s.recorder with inHand := none, work := .idle, queue := [] }, List.replicate q.length .overflow)
    let mem := Memory.hostWrites s.mem bus.host
    let failed := fun mem' : List Host.Cell =>
      ({ s with
          mem := mem'
          recorder := next.1
          mail := { s.mail with
            recorderFailures := s.mail.recorderFailures + 1
            flagRequests := s.mail.flagRequests ++ [.overflow] ++ next.2 } } : State)
    (∀ base entry examined, s.recorder.work = .searching base entry examined →
      let state := Memory.read mem (base + BitVec.ofNat 32 (192 + 16 * entry)).toNat
      (bus.error ≠ none → exec (.faultSearchRead bus) s = .next (failed mem)) ∧
      (bus.error = none → state = 0 → exec (.faultSearchRead bus) s = .next
        { s with mem := mem, recorder := { s.recorder with work := .writing base entry } }) ∧
      (bus.error = none → state ≠ 0 → examined + 1 < 16 → exec (.faultSearchRead bus) s = .next
        { s with
          mem := mem
          recorder := { s.recorder with work := .searching base ((entry + 1) % 16) (examined + 1) } }) ∧
      (bus.error = none → state ≠ 0 → 16 ≤ examined + 1 → exec (.faultSearchRead bus) s = .next
        { s with
          mem := mem
          recorder := { s.recorder with tableFull := true, inHand := none, work := .idle, queue := [] }
          mail := { s.mail with
            flagRequests := s.mail.flagRequests ++ List.replicate (s.recorder.queue.length + 1) .overflow } })) ∧
    (∀ base entry f, s.recorder.work = .writing base entry → s.recorder.inHand = some f →
      let written := busWriteMemory bus s.mem (base + BitVec.ofNat 32 (192 + 16 * entry))
        ([BitVec.ofNat 8 (f.request.code.code + 16 * f.part.code),
          (f.request.lane.map fun l => BitVec.ofNat 8 l.val).getD 0xFF] ++
          halfBytes (f.request.serial.getD 0) ++ halfBytes (BitVec.ofNat 16 (f.request.row.getD 0xFFFF)) ++
          halfBytes (BitVec.ofNat 16 (f.request.line.getD 0xFFFF)) ++ wordBytes f.frame ++
          wordBytes (f.request.address.getD 0))
      (bus.error ≠ none → exec (.faultEntryWrite bus) s = .next (failed written)) ∧
      (bus.error = none → s.recorder.tableFull = false → exec (.faultEntryWrite bus) s = .next
        { s with
          mem := written
          recorder := match s.recorder.queue with
            | [] => { s.recorder with position := entry, inHand := none, work := .idle }
            | g :: more =>
              { s.recorder with
                position := entry, queue := more, inHand := some g
                work := .searching s.port.exb ((entry + 1) % 16) 0 }
          mail := { s.mail with flagRequests := s.mail.flagRequests ++ [.fault] } }) ∧
      (bus.error = none → s.recorder.tableFull = true → exec (.faultEntryWrite bus) s = .next
        { s with
          mem := written
          recorder := { s.recorder with position := entry, inHand := none, work := .idle, queue := [] }
          mail := { s.mail with
            flagRequests := s.mail.flagRequests ++ [.fault] ++ List.replicate s.recorder.queue.length .overflow } })) ∧
    (s.mail.overflowClears = 0 → exec .overflowClear s = .next s) ∧
    (∀ n, s.mail.overflowClears = n + 1 → exec .overflowClear s = .next
      { s with
        mail := { s.mail with overflowClears := n }, recorder := { s.recorder with tableFull := false } })

/-! ## The Lane Service (Chapter 5) -/

/-- R95, R117: the record of each lane is read at START, its fields are copied and its state is written; after lane 3
setup is complete (log 13, log 31). With no lane being set up nothing changes (log 1). A record past the top of the
address space lies from address 0 on (log 46). -/
def Obligations.LanesAreSetUpAtStart : Prop :=
  ∀ (l : Lane) (bus : BusEvent) (s : State),
    let record : Word := s.port.exb + BitVec.ofNat 32 (64 + 32 * l.val)
    let mem := Memory.hostWrites s.mem bus.host
    let bs := Memory.readBytes mem record 32
    ((s.lanes.setup = none ∨ s.lanes.agenda ≠ []) → exec (.laneSetup bus) s = .next s) ∧
    (s.lanes.setup = some l → s.lanes.agenda = [] → bus.error = none → exec (.laneSetup bus) s = .next
      { s with
        mem := mem
        lanes := { s.lanes with
          lanes := s.lanes.lanes.set l
            { s.lane l with
              enable := byteAt bs 8 != 0
              laneClass := if byteAt bs 9 = 1 then .urgent else .normal
              weight := byteAt bs 10
              relax := byteAt bs 11
              lastTicket := some (byteAt bs 16)
              anchor := none
              expected := none
              haltReason := .none
              drainTarget := .running
              abortsOutstanding := 0
              ackOwed := false
              state := if byteAt bs 8 = 0 then .off else .running }
          agenda := [.writeState l, .writeAnchorZero l, .nextSetup l] } }) ∧
    (s.lanes.setup = some l → s.lanes.agenda = [] → bus.error ≠ none → exec (.laneSetup bus) s = .next
      { s with
        mem := mem
        lanes := { s.lanes with
          lanes := s.lanes.lanes.set l
            { s.lane l with
              enable := false, laneClass := .normal, weight := 0, relax := 0, lastTicket := none
              haltReason := .linkFault, drainTarget := .running, abortsOutstanding := 0, ackOwed := false
              state := .halted }
          agenda := [.writeState l, .nextSetup l] }
        mail := { s.mail with
          faultRequests := s.mail.faultRequests ++
            [(.laneService,
              { code := .linkFault, lane := some l, address := some 0, serial := some 0, row := none, line := none,
                frame := none })]
          flagRequests := s.mail.flagRequests ++ [.lane] } }) ∧
    (∀ w, s.lanes.agenda = [w, .nextSetup l] → (w = .writeAnchorZero l ∨ w = .writeState l) → s.lanes.job = none →
      bus.error = none →
      let written := if w = .writeState l
        then Memory.writeBytes mem (record + 18#32)
          [BitVec.ofNat 8 (s.lane l).state.code, BitVec.ofNat 8 (s.lane l).haltReason.code]
        else Memory.writeBytes mem (record + 24#32) [0, 0, 0, 0]
      exec (.laneRecordWrite bus) s = .next
        (if l = 3 then
          { s with
            mem := written
            lanes := { s.lanes with setup := none, agenda := [] }
            mail := { s.mail with setupComplete := true } }
        else { s with mem := written, lanes := { s.lanes with setup := some (l + 1), agenda := [] } }))

/-- R96, R97, R98: a boundary begins the work on lane 0 in ACTIVE and HOLD, and is reported alone otherwise; a lane
that asks nothing new is polled, and the work goes to the next lane, after lane 3 to the poll report, which reaches
the Mode Controller. A DRAINING lane's record is read and nothing more (log 36). R112: after a stop notice no lane is
polled, the poll report goes out and every ordinary entry is marked STOPPED (log 15, log 45). That a notice and a read
wait while the Lane Service has another event in hand is log 13's choice; without their occasion nothing changes (log 1).
A record past the top of the address space lies from address 0 on (log 46). -/
def Obligations.LanesAreServedInOrder : Prop :=
  ∀ s : State,
    (∀ rest frame, s.mail.laneBoundary = frame :: rest → s.lanes.job = none → s.lanes.agenda = [] →
      s.lanes.setup = none → exec .laneBoundary s = .next
        (if s.mode.part = .active ∨ s.mode.part = .hold then
          { s with
            lanes := { s.lanes with
              job := some { lane := 0, phase := .recordRead, appended := false, ticketTaken := false,
                            stopNoted := false } }
            mail := { s.mail with laneBoundary := rest } }
        else
          { s with mail := { s.mail with
              laneBoundary := rest, pollReports := s.mail.pollReports ++ [⟨false, false⟩] } })) ∧
    ((s.mail.laneBoundary = [] ∨ s.lanes.job ≠ none ∨ s.lanes.agenda ≠ [] ∨ s.lanes.setup ≠ none) →
      exec .laneBoundary s = .next s) ∧
    (∀ r rest, s.mail.pollReports = r :: rest → exec .pollReport s = .next
      { s with
        mail := { s.mail with pollReports := rest }
        mode := { s.mode with pollReports := s.mode.pollReports ++ [r] } }) ∧
    (s.mail.pollReports = [] → exec .pollReport s = .next s) ∧
    (∀ (j : BoundaryJob) (bus : BusEvent), s.lanes.job = some j → s.lanes.agenda = [] → j.phase = .recordRead →
      let mem := Memory.hostWrites s.mem bus.host
      let u := s.lane j.lane
      let bs := Memory.readBytes mem (s.port.exb + BitVec.ofNat 32 (64 + 32 * j.lane.val)) 32
      let link := wordAt bs 0
      let inPhase := fun p : PollPhase =>
        ({ s with mem := mem, lanes := { s.lanes with job := some { j with phase := p } } } : State)
      let served : State :=
        if j.stopNoted = true then ({ s with mem := mem } : State).stoppedAfter j
        else if j.lane = 3 then
          { s with
            mem := mem
            lanes := { s.lanes with job := none }
            mail := { s.mail with pollReports := s.mail.pollReports ++ [⟨j.appended, j.ticketTaken⟩] } }
        else { s with mem := mem, lanes := { s.lanes with job := some { j with lane := j.lane + 1 } } }
      ((u.state = .draining ∨ bus.error ≠ none ∧ u.state ≠ .running) →
        exec (.laneRequestRead bus) s = .next served) ∧
      (u.state ≠ .draining → bus.error = none → u.lastTicket = some (byteAt bs 13) →
        ((j.stopNoted = true ∨ u.state ≠ .running ∨ 2 ≤ u.intake.length) →
          exec (.laneRequestRead bus) s = .next served) ∧
        (j.stopNoted = false → u.state = .running → u.intake.length < 2 →
          (u.anchor ≠ none → exec (.laneRequestRead bus) s = .next (inPhase .linkRead)) ∧
          (u.anchor = none → link = 0 → exec (.laneRequestRead bus) s = .next served) ∧
          (u.anchor = none → link ≠ 0 → link.toNat % 16 = 0 →
            exec (.laneRequestRead bus) s = .next (inPhase (.headerRead link)))))) ∧
    (∀ bus, (∀ j, s.lanes.job = some j → j.phase = .recordRead → s.lanes.agenda ≠ []) →
      exec (.laneRequestRead bus) s = .next s)

/-- R97, R107, R108, R109: a new ticket is taken, the request acted on by its code and the lane's state, and answered
DONE or REFUSED; the poll follows (log 13, log 14). A RESUME takes its request head link from the same read (log 44). A
stop notice that has come meanwhile changes nothing of this (R112, log 15). A record past the top of the address space
lies from address 0 on (log 46). -/
def Obligations.LaneRequestsAreTaken : Prop :=
  ∀ (j : BoundaryJob) (bus : BusEvent) (s : State), s.lanes.job = some j → s.lanes.agenda = [] →
    j.phase = .recordRead → bus.error = none →
    let l := j.lane
    let u := s.lane l
    let mem := Memory.hostWrites s.mem bus.host
    let bs := Memory.readBytes mem (s.port.exb + BitVec.ofNat 32 (64 + 32 * l.val)) 32
    let code := (byteAt bs 12).toNat
    let ticket := byteAt bs 13
    u.state ≠ .draining → u.lastTicket ≠ some ticket →
    let acted := fun (v : LaneUnit) (tasks : List LaneTask) (aborts : List Lane) =>
      ({ s with
          mem := mem
          lanes := { s.lanes with
            lanes := s.lanes.lanes.set l { v with lastTicket := some ticket }
            job := some { j with phase := .acting, ticketTaken := true }
            agenda := tasks }
          mail := { s.mail with abortLanes := s.mail.abortLanes ++ aborts } } : State)
    let drained := fun target : DrainTarget => acted
      { u with
        ackOwed := true
        intake := u.intake.map fun e => if e.mark = .ordinary then { e with mark := .dropped } else e
        abortsOutstanding := u.abortsOutstanding + 1
        drainTarget := target
        state := .draining }
      ((if u.flight = none ∧ u.intake ≠ [] then
          [.writeEntryOutcome l, .writeEntryReleased l, .notifyEntry l, .removeEntry l, .endEntries l]
        else []) ++ [.writeState l, .startPoll l (wordAt bs 0)]) [l]
    let answered := fun done : Bool => acted u [.writeAck l ticket done, .startPoll l (wordAt bs 0)] []
    (u.state = .off → exec (.laneRequestRead bus) s = .next (answered false)) ∧
    (u.state ≠ .off → code = 0 → exec (.laneRequestRead bus) s = .next (answered true)) ∧
    (u.state = .running → code = 1 → exec (.laneRequestRead bus) s = .next (answered false)) ∧
    (u.state = .halted → code = 1 → exec (.laneRequestRead bus) s = .next
      (acted { u with anchor := none, expected := none, haltReason := .none, state := .running }
        [.writeState l, .writeAnchorZero l, .writeHead l (wordAt bs 4), .writeAck l ticket true,
         .startPoll l (wordAt bs 4)] [])) ∧
    (u.state = .running → code = 2 → exec (.laneRequestRead bus) s = .next (drained .running)) ∧
    (u.state = .running → code = 3 → exec (.laneRequestRead bus) s = .next (drained .halted)) ∧
    (u.state = .halted → (code = 2 ∨ code = 3) → exec (.laneRequestRead bus) s = .next (answered true)) ∧
    (u.state ≠ .off → 4 ≤ code → exec (.laneRequestRead bus) s = .next (answered false))

/-- R97, R99, R100, R106, R110, R111, R113: what a failed read, a misaligned link, a wrong serial and a failed write
do to a lane: a fault entry, LANE, the halt reason, DROPPED marks, an abort and draining toward HALTED (log 14); what
the halt writes stands before the steps that remained (log 41). A lane that is DRAINING keeps its first halt reason; one
that is HALTED or OFF goes on. R112: a failed read and a wrong serial halt the lane after a stop notice too; a link read
then is not followed (log 15). A record past the top of the address space lies from address 0 on (log 46). -/
def Obligations.FaultsHaltTheLane : Prop :=
  ∀ (l : Lane) (bus : BusEvent) (s : State),
    let u := s.lane l
    let record : Word := s.port.exb + BitVec.ofNat 32 (64 + 32 * l.val)
    let mem := Memory.hostWrites s.mem bus.host
    let expected := u.expected.getD 0
    let endings : List LaneTask :=
      if u.flight = none ∧ u.intake ≠ [] then
        [.writeEntryOutcome l, .writeEntryReleased l, .notifyEntry l, .removeEntry l, .endEntries l]
      else []
    let told := fun (cause : FaultCode) (address : Word) (serial : Half) =>
      [(FaultSender.laneService,
        ({ code := cause, lane := some l, address := some address, serial := some serial, row := none, line := none,
           frame := none } : FaultRequest))]
    let halting := fun (reason : HaltReason) =>
      ({ u with
          haltReason := reason
          intake := u.intake.map fun e => if e.mark = .ordinary then { e with mark := .dropped } else e
          abortsOutstanding := u.abortsOutstanding + 1
          drainTarget := .halted
          state := .draining } : LaneUnit)
    (∀ j, s.lanes.job = some j → j.lane = l → s.lanes.agenda = [] → u.state = .running →
      let halted := fun (cause : FaultCode) (reason : HaltReason) (address : Word) (serial : Half) =>
        ({ s with
            mem := mem
            lanes := { s.lanes with
              lanes := s.lanes.lanes.set l (halting reason)
              job := some { j with phase := .ended }
              agenda := endings ++ [.writeState l] }
            mail := { s.mail with
              faultRequests := s.mail.faultRequests ++ told cause address serial
              flagRequests := s.mail.flagRequests ++ [.lane]
              abortLanes := s.mail.abortLanes ++ [l] } } : State)
      (j.phase = .recordRead → bus.error ≠ none →
        exec (.laneRequestRead bus) s = .next (halted .linkFault .linkFault 0 expected)) ∧
      (∀ link, j.phase = .recordRead → j.stopNoted = false → bus.error = none →
        u.lastTicket = some (byteAt (Memory.readBytes mem record 32) 13) →
        u.intake.length < 2 → u.anchor = none → link = wordAt (Memory.readBytes mem record 32) 0 →
        link.toNat % 16 ≠ 0 →
        exec (.laneRequestRead bus) s = .next (halted .chainMisaligned .chainMisaligned link expected)) ∧
      (j.phase = .linkRead → bus.error ≠ none →
        exec (.nextLinkRead bus) s = .next (halted .linkFault .linkFault (u.anchor.getD 0) (expected - 1))) ∧
      (∀ link, j.phase = .linkRead → j.stopNoted = false → bus.error = none →
        link = wordAt (Memory.readBytes mem (u.anchor.getD 0) 4) 0 → link.toNat % 16 ≠ 0 →
        exec (.nextLinkRead bus) s = .next (halted .chainMisaligned .chainMisaligned link expected)) ∧
      (∀ link, j.phase = .headerRead link → bus.error ≠ none →
        exec (.headerRead bus) s = .next (halted .linkFault .linkFault link expected)) ∧
      (∀ link serial, j.phase = .headerRead link → bus.error = none →
        serial = halfAt (Memory.readBytes mem link 32) 4 → u.expected ≠ none → u.expected ≠ some serial →
        exec (.headerRead bus) s = .next (halted .sequence .sequence link serial))) ∧
    (∀ (w : LaneTask) (rest : List LaneTask) (a : Word) (bs : List Byte) (landed : List Nat),
      s.lanes.agenda = w :: rest → s.outstandingWrite .laneService = some (a, bs) → bus.error = some landed →
      let written := Memory.writeSome (fun i => landed.contains i) 0 mem a bs
      ∀ (address : Word) (serial : Half),
        (w = .writeState l ∨ w = .writeAnchorZero l ∨ (∃ link, w = .writeHead l link) ∨
            (∃ ticket done, w = .writeAck l ticket done)) ∧ address = 0 ∧ serial = 0 ∨
          w = .writeAnchor l ∧ address = u.anchor.getD 0 ∧ serial = expected - 1 ∨
          w = .writeReleased l serial address ∨
          (∃ e es, u.intake = e :: es ∧ (w = .writeEntryOutcome l ∨ w = .writeEntryReleased l) ∧
            address = e.header.address ∧ serial = e.header.serial) →
        (u.state = .running →
          exec (.laneRecordWrite bus) s = .next
            { s with
              mem := written
              lanes := { s.lanes with
                lanes := s.lanes.lanes.set l (halting .outcomeWrite)
                job := s.lanes.job.map fun j =>
                  if j.lane = l ∧ j.phase ≠ .recordRead then { j with phase := .ended } else j
                agenda := (if w = .writeEntryOutcome l ∨ w = .writeEntryReleased l then [] else endings) ++
                  [.writeState l] ++ rest }
              mail := { s.mail with
                faultRequests := s.mail.faultRequests ++ told .outcomeWrite address serial
                flagRequests := s.mail.flagRequests ++ [.lane]
                abortLanes := s.mail.abortLanes ++ [l] } }) ∧
        (u.state = .draining → exec (.laneRecordWrite bus) s = .next
          (State.work rest
            { s with
              mem := written
              lanes := { s.lanes with
                lanes := s.lanes.lanes.set l
                  { u with
                    drainTarget := .halted
                    haltReason := if u.haltReason = .none then .outcomeWrite else u.haltReason } }
              mail := { s.mail with
                faultRequests := s.mail.faultRequests ++ told .outcomeWrite address serial
                flagRequests := s.mail.flagRequests ++ [.lane] } })) ∧
        ((u.state = .halted ∨ u.state = .off) →
          exec (.laneRecordWrite bus) s = .next (State.work rest { s with mem := written })))

/-- R98, R99, R100, R101, R112: the anchor's next link and the header it names: 0 ends the poll, an aligned link has
its header read, and a set with the serial expected is appended, malformed or not, and becomes the anchor (log 13). After
a stop notice the link is not followed, the work of the boundary ends (log 15, log 45), and a set is appended STOPPED. A
read in another phase leaves the state as it is (log 1). -/
def Obligations.ChainIsFollowedAndSetsFetched : Prop :=
  ∀ (j : BoundaryJob) (bus : BusEvent) (s : State), s.lanes.job = some j → s.lanes.agenda = [] →
    let l := j.lane
    let u := s.lane l
    let mem := Memory.hostWrites s.mem bus.host
    (j.phase = .linkRead → j.stopNoted = true → bus.error = none →
      exec (.nextLinkRead bus) s = .next (({ s with mem := mem } : State).stoppedAfter j)) ∧
    (j.phase = .linkRead → j.stopNoted = false → bus.error = none →
      let link := wordAt (Memory.readBytes mem (u.anchor.getD 0) 4) 0
      (link = 0 → exec (.nextLinkRead bus) s = .next
        (if l = 3 then
          { s with
            mem := mem
            lanes := { s.lanes with job := none }
            mail := { s.mail with pollReports := s.mail.pollReports ++ [⟨j.appended, j.ticketTaken⟩] } }
        else
          { s with mem := mem, lanes := { s.lanes with job := some { j with lane := l + 1, phase := .recordRead } } })) ∧
      (link ≠ 0 → link.toNat % 16 = 0 → exec (.nextLinkRead bus) s = .next
        { s with mem := mem, lanes := { s.lanes with job := some { j with phase := .headerRead link } } })) ∧
    (j.phase ≠ .linkRead → exec (.nextLinkRead bus) s = .next s) ∧
    (∀ link, j.phase = .headerRead link → bus.error = none →
      let bs := Memory.readBytes mem link 32
      let serial := halfAt bs 4
      let mark : EntryMark :=
        if (byteAt bs 6).toNat ≠ l.val ∨ 64 < (byteAt bs 7).toNat then .malformed
        else if j.stopNoted then .stopped else .ordinary
      (u.expected = none ∨ u.expected = some serial) → exec (.headerRead bus) s = .next
        { s with
          mem := mem
          lanes := { s.lanes with
            lanes := s.lanes.lanes.set l
              { u with
                intake := u.intake ++
                  [{ header :=
                       { address := link, lane := byteAt bs 6, serial := serial, opCount := byteAt bs 7
                         notify := byteAt bs 8 != 0 }
                     commitFrame := wordAt bs 16
                     mark := mark }]
                anchor := some link
                expected := some (serial + 1) }
            job := some { j with appended := true, phase := if j.stopNoted then .ended else .acting }
            agenda := [.writeAnchor l, .endEntries l] ++
              (if u.intake = [] ∧ mark = .ordinary then [.reportEligible l] else []) ++ [.continuePoll l] } }) ∧
    ((∀ link, j.phase ≠ .headerRead link) → exec (.headerRead bus) s = .next s)

/-- R25, R89, R91, R98, R99, R101, R103 to R107, R109 to R112, R165: a bus write of the Lane Service puts its write group
where it belongs, and the steps that are no writes follow up to the next write: an entry ready to end is ended, a failed
outcome write halts the lane, the Commit Unit hears that its report was taken, the poll begins or goes on; with nothing
left to do a lane whose work has ended gives way to the next. That an event is worked off whole in this way is log 13; in
a halt, that the endings come first, then the lane state, then the steps that remained, is logs 14 and 41; that a stop
notice noted ends the work with no request step for the later lanes is log 15, and that lane 0's endings then come first
log 45. With no write outstanding nothing changes (log 1). The poll's number of fetches is not limited (log 40). A record
past the top of the address space lies from address 0 on (log 46). -/
def Obligations.LaneWritesAndStepsFollow : Prop :=
  (∀ (bus : BusEvent) (s : State) (l : Lane),
    let u := s.lane l
    let record : Word := s.port.exb + BitVec.ofNat 32 (64 + 32 * l.val)
    ∀ (w : LaneTask) (rest : List LaneTask) (a : Word) (bs : List Byte), s.lanes.agenda = w :: rest →
      bus.error = none →
      (w = .writeState l ∧ a = record + 18#32 ∧
          bs = [BitVec.ofNat 8 u.state.code, BitVec.ofNat 8 u.haltReason.code] ∨
        w = .writeAnchorZero l ∧ a = record + 24#32 ∧ bs = [0, 0, 0, 0] ∨
        w = .writeAnchor l ∧ a = record + 22#32 ∧
          bs = halfBytes (u.expected.getD 0) ++ wordBytes (u.anchor.getD 0) ∨
        (∃ link, w = .writeHead l link ∧ a = record ∧ bs = wordBytes link) ∨
        (∃ ticket done, w = .writeAck l ticket done ∧ a = record + 16#32 ∧ bs = [ticket, if done then 1 else 2]) ∨
        (∃ serial address, w = .writeReleased l serial address ∧ a = record + 20#32 ∧ bs = halfBytes serial) ∨
        (∃ e es, u.intake = e :: es ∧
          (w = .writeEntryOutcome l ∧ a = e.header.address + 16#32 ∧
              bs = wordBytes e.commitFrame ++
                [if e.mark = .malformed then 2 else if e.mark = .stopped then 10 else 9, 255, 0, 0] ∨
            w = .writeEntryReleased l ∧ a = record + 20#32 ∧ bs = halfBytes e.header.serial))) →
      exec (.laneRecordWrite bus) s = .next
        (State.work rest { s with mem := Memory.writeBytes (Memory.hostWrites s.mem bus.host) a bs })) ∧
  (∀ (bus : BusEvent) (s : State), s.lanes.agenda = [] → exec (.laneRecordWrite bus) s = .next s) ∧
  (∀ (s : State) (l : Lane) (rest : List LaneTask),
    let u := s.lane l
    let withLane := fun v : LaneUnit => ({ s with lanes := { s.lanes with lanes := s.lanes.lanes.set l v } } : State)
    let notified := ({ s with mail := { s.mail with flagRequests := s.mail.flagRequests ++ [.notify] } } : State)
    (∀ w, w.isWrite = true → State.work (w :: rest) s = { s with lanes := { s.lanes with agenda := w :: rest } }) ∧
    (∀ e es, u.intake = e :: es →
      State.work (.notifyEntry l :: rest) s = State.work rest (if e.header.notify then notified else s) ∧
      State.work (.removeEntry l :: rest) s = State.work rest (withLane { u with intake := es })) ∧
    (∀ f, u.flight = some f →
      State.work (.notifyFlight l :: rest) s = State.work rest (if f.notify then notified else s)) ∧
    State.work (.clearFlight l :: rest) s = State.work rest (withLane { u with flight := none }) ∧
    (∀ e es, u.intake = e :: es → u.flight = none → e.mark ≠ .ordinary →
      State.work (.endEntries l :: rest) s =
        { s with lanes := { s.lanes with agenda :=
            [.writeEntryOutcome l, .writeEntryReleased l, .notifyEntry l, .removeEntry l, .endEntries l] ++ rest } }) ∧
    ((u.intake = [] ∨ u.flight ≠ none ∨ ∃ e es, u.intake = e :: es ∧ e.mark = .ordinary) →
      State.work (.endEntries l :: rest) s = State.work rest s) ∧
    (State.work (.reportEligible l :: rest) s = State.work rest
      (if u.state = .running ∧ u.flight = none ∧ u.intake.head?.any (fun e => e.mark == .ordinary) = true then
        { s with mail := { s.mail with eligible := s.mail.eligible ++ [l] } }
      else s)) ∧
    State.work (.reportTaken :: rest) s = State.work rest
      { s with commit := { s.commit with
          ready := s.commit.ready.tail
          outcomeWork :=
            if s.commit.ready.tail.head?.any (fun e =>
                e.condition == .published && (!s.commit.inProgress || e.commitFrame != s.commit.frame)) then .writing
            else .idle } }) ∧
  (∀ (s : State) (l : Lane) (rest : List LaneTask),
    let u := s.lane l
    let halted := fun (cause : FaultCode) (reason : HaltReason) (address : Word) (serial : Half) =>
      ({ s with
          lanes := { s.lanes with
            lanes := s.lanes.lanes.set l
              { u with
                haltReason := reason
                intake := u.intake.map fun e => if e.mark = .ordinary then { e with mark := .dropped } else e
                abortsOutstanding := u.abortsOutstanding + 1
                drainTarget := .halted
                state := .draining }
            job := s.lanes.job.map fun j =>
              if j.lane = l ∧ j.phase ≠ .recordRead then { j with phase := .ended } else j
            agenda :=
              (if u.flight = none ∧ u.intake ≠ [] then
                [.writeEntryOutcome l, .writeEntryReleased l, .notifyEntry l, .removeEntry l, .endEntries l]
              else []) ++ [.writeState l] ++ rest }
          mail := { s.mail with
            faultRequests := s.mail.faultRequests ++
              [(.laneService,
                { code := cause, lane := some l, address := some address, serial := some serial, row := none,
                  line := none, frame := none })]
            flagRequests := s.mail.flagRequests ++ [.lane]
            abortLanes := s.mail.abortLanes ++ [l] } } : State)
    (∀ (address : Word) (serial : Half),
      (u.state = .running →
        State.work (.outcomeHalt l address serial :: rest) s = halted .outcomeWrite .outcomeWrite address serial) ∧
      (u.state = .draining → State.work (.outcomeHalt l address serial :: rest) s = State.work rest
        { s with
          lanes := { s.lanes with
            lanes := s.lanes.lanes.set l
              { u with
                drainTarget := .halted
                haltReason := if u.haltReason = .none then .outcomeWrite else u.haltReason } }
          mail := { s.mail with
            faultRequests := s.mail.faultRequests ++
              [(.laneService,
                { code := .outcomeWrite, lane := some l, address := some address, serial := some serial, row := none,
                  line := none, frame := none })]
            flagRequests := s.mail.flagRequests ++ [.lane] } }) ∧
      ((u.state = .halted ∨ u.state = .off) →
        State.work (.outcomeHalt l address serial :: rest) s = State.work rest s)) ∧
    (∀ (task : LaneTask) (link : Word), (task = .startPoll l link ∨ task = .continuePoll l ∧ link = 0) →
      ((∀ j, s.lanes.job = some j → j.lane ≠ l ∨ j.phase ≠ .acting) →
        State.work (task :: rest) s = State.work rest s) ∧
      (∀ j, s.lanes.job = some j → j.lane = l → j.phase = .acting →
        let inPhase := fun p : PollPhase =>
          ({ s with lanes := { s.lanes with job := some { j with phase := p } } } : State)
        ((j.stopNoted = true ∨ u.state ≠ .running ∨ 2 ≤ u.intake.length) →
          State.work (task :: rest) s = State.work rest (inPhase .ended)) ∧
        (j.stopNoted = false → u.state = .running → u.intake.length < 2 →
          (u.anchor ≠ none → State.work (task :: rest) s = State.work rest (inPhase .linkRead)) ∧
          (u.anchor = none → link = 0 → State.work (task :: rest) s = State.work rest (inPhase .ended)) ∧
          (u.anchor = none → link ≠ 0 → link.toNat % 16 = 0 →
            State.work (task :: rest) s = State.work rest (inPhase (.headerRead link))) ∧
          (u.anchor = none → link.toNat % 16 ≠ 0 → State.work (task :: rest) s =
            halted .chainMisaligned .chainMisaligned link (u.expected.getD 0)))))) ∧
  (∀ s : State,
    let idle : State := { s with lanes := { s.lanes with agenda := [] } }
    ((∀ j, s.lanes.job = some j → j.phase ≠ .ended) → State.work [] s = idle) ∧
    (∀ j, s.lanes.job = some j → j.phase = .ended →
      (j.stopNoted = true → State.work [] s = s.stoppedAfter j) ∧
      (j.stopNoted = false → j.lane ≠ 3 → State.work [] s =
        { idle with lanes := { idle.lanes with job := some { j with lane := j.lane + 1, phase := .recordRead } } }) ∧
      (j.stopNoted = false → j.lane = 3 → State.work [] s =
        { idle with
          lanes := { idle.lanes with job := none }
          mail := { s.mail with pollReports := s.mail.pollReports ++ [⟨j.appended, j.ticketTaken⟩] } })))

/-- R89, R105, R109, R112: END_REPORT begins the release of a set, COMPLETION_REPORT ends draining when no abort is
outstanding, and STOP_NOTICE marks every ordinary entry STOPPED and ends those free to end, or is noted until the read
outstanding has ended (log 13, log 15, log 30); lane 0's endings come first (log 45). Without a report or a notice nothing changes (log 1). -/
def Obligations.EndsCompletionsAndStopsAreTaken : Prop :=
  ∀ s : State,
    (∀ (reporter : EndReporter) (r : EndReport) (mail : Mail), s.lanes.agenda = [] →
      (reporter = .engine ∧
          (∃ rest, s.mail.engineReports = .ended r :: rest ∧ mail = { s.mail with engineReports := rest }) ∨
        reporter = .commitUnit ∧ s.mail.commitReport = some r ∧ mail = { s.mail with commitReport := none }) →
      exec (.endReport reporter) s = .next
        { s with
          mail := mail
          lanes := { s.lanes with agenda :=
            [.writeReleased r.lane r.serial r.address, .notifyFlight r.lane] ++
              (if r.written then [] else [.outcomeHalt r.lane r.address r.serial]) ++
              [.clearFlight r.lane, .endEntries r.lane] ++
              (if reporter = .commitUnit then [.reportTaken] else []) ++ [.reportEligible r.lane] } }) ∧
    (∀ l rest, s.lanes.agenda = [] → s.mail.engineReports = .completion l :: rest →
      let u := s.lane l
      let took := fun (v : LaneUnit) (tasks : List LaneTask) =>
        ({ s with
            mail := { s.mail with engineReports := rest }
            lanes := { s.lanes with lanes := s.lanes.lanes.set l v, agenda := tasks } } : State)
      ((u.abortsOutstanding ≤ 1 → u.state ≠ .draining) → exec .completionReport s = .next
        (took { u with abortsOutstanding := u.abortsOutstanding - 1 } [])) ∧
      (u.abortsOutstanding ≤ 1 → u.state = .draining → exec .completionReport s = .next
        (took
          { u with
            abortsOutstanding := 0
            drainTarget := .running
            ackOwed := false
            state := if u.drainTarget = .halted then .halted else .running
            haltReason := if u.drainTarget = .halted ∧ u.haltReason = .none then .halt else u.haltReason }
          (.writeState l :: if u.ackOwed then [.writeAck l (u.lastTicket.getD 0) true] else [])))) ∧
    (s.mail.stopNotice = true → s.lanes.agenda = [] → s.lanes.job = none →
      exec .stopNotice s = .next
        { s with
          mail := { s.mail with stopNotice := false }
          lanes := { s.lanes with
            lanes := PerLane.ofFn fun l =>
              { s.lane l with
                intake := (s.lane l).intake.map fun e => if e.mark = .ordinary then { e with mark := .stopped } else e }
            agenda := [0, 1, 2, 3].flatMap fun l : Lane =>
              if (s.lane l).flight = none ∧ (s.lane l).intake ≠ [] then
                [.writeEntryOutcome l, .writeEntryReleased l, .notifyEntry l, .removeEntry l, .endEntries l]
              else [] } }) ∧
    (∀ j, s.mail.stopNotice = true → s.lanes.agenda = [] → s.lanes.job = some j →
      exec .stopNotice s = .next
        { s with
          mail := { s.mail with stopNotice := false }
          lanes := { s.lanes with job := some { j with stopNoted := true } } }) ∧
    ((s.mail.stopNotice = false ∨ s.lanes.agenda ≠ []) → exec .stopNotice s = .next s) ∧
    ((s.lanes.agenda ≠ [] ∨ ∀ r, s.mail.engineReports.head? ≠ some (.ended r)) → exec (.endReport .engine) s = .next s) ∧
    ((s.lanes.agenda ≠ [] ∨ s.mail.commitReport = none) → exec (.endReport .commitUnit) s = .next s) ∧
    ((s.lanes.agenda ≠ [] ∨ ∀ l, s.mail.engineReports.head? ≠ some (.completion l)) →
      exec .completionReport s = .next s)

/-! ## Resets (01 R20, 03 R71, 04 R92, 05 R114, 07 R146, 09 R160, R163, R164) -/

/-- R20, R71, R92, R114, R146, R148, R159, R160, R164: the soft reset keeps EXB and the store contents; the power-on
reset keeps neither; the pin's going active holds it; a bus write that had begun is completed first (log 6, log 7, log
27). -/
def Obligations.ResetsRestoreTheResetValues : Prop :=
  ∀ (begun : Begun) (s : State) (mem : Memory),
    (begun = none ∧ mem = s.mem ∨
      (∃ unit bus, begun = some (unit, bus) ∧ s.outstandingWrite unit = none ∧ mem = s.mem) ∨
      (∃ unit bus a bs, begun = some (unit, bus) ∧ s.outstandingWrite unit = some (a, bs) ∧ bus.error = none ∧
        mem = Memory.writeBytes (Memory.hostWrites s.mem bus.host) a bs) ∨
      (∃ unit bus a bs landed, begun = some (unit, bus) ∧ s.outstandingWrite unit = some (a, bs) ∧
        bus.error = some landed ∧
        mem = Memory.writeSome (fun i => landed.contains i) 0 (Memory.hostWrites s.mem bus.host) a bs)) →
    let soft : State :=
      { pending := s.pending, now := s.now, powerOns := s.powerOns, mem := mem
        port := { State.reset.port with exb := s.port.exb }
        mode := State.reset.mode, scan := State.reset.scan, commit := State.reset.commit, lanes := State.reset.lanes
        arbiter := State.reset.arbiter, engine := State.reset.engine, map := State.reset.map
        store := { lines := s.store.lines, marks := List.replicate 384 false, markedCount := 0 }
        recorder := State.reset.recorder, mail := State.reset.mail }
    (s.port.resetPin = false → exec (.reset begun) s = .next soft) ∧
    exec (.resetPinAsserted begun) s = .next { soft with port := { soft.port with resetPin := true } } ∧
    exec (.powerOnReset begun) s = .next
      { soft with
        powerOns := s.powerOns + 1
        port := State.reset.port
        store := { soft.store with lines := List.replicate 384 (.unknown (s.powerOns + 1)) } }

/-- What the machine is right after reset, by the rules that give its values (R5, R9, R20, R49, R72, R88, R93, R116,
R127, R148, R159 to R161), and that it satisfies every invariant below. The model's own choices of log 4 and log 10
(memory lists nothing; times are 0) are part of what `State.reset` holds. -/
def Obligations.ResetStateIsSound : Prop :=
  let s := State.reset
  s.pending = [] ∧ Memory.wf s.mem = true ∧ s.map.Consistent ∧ s.store.Consistent ∧ s.ModeConsistent ∧
  s.WithinCapacity ∧ s.FlightConsistent ∧
  s.port.exb = 0 ∧ (∀ f : Flag, s.port.flags.get f = false ∧ s.port.enables.get f = false) ∧
  s.port.lastResult = .noResult ∧ s.port.inHand = none ∧ s.port.waiting = none ∧ s.port.interruptLine = false ∧
  s.mode.part = .off ∧ s.mode.plan = none ∧ s.mode.idleCount = 0 ∧ s.mode.stopRecorded = false ∧
  s.mode.faultHeld = false ∧ s.mode.panel = .dark ∧ s.mode.pubReports = [] ∧ s.mode.pollReports = [] ∧
  s.panelEnable = false ∧ s.frameMarkPin = false ∧ s.strobePin = false ∧ s.dataPins = [0] ∧
  s.scan.mode = .still ∧ s.scan.row = none ∧ s.scan.publicationAwaited = false ∧ s.scan.blank = false ∧
  s.scan.finishPending = false ∧ s.scan.frameCount = 0 ∧
  s.commit.ready = [] ∧ s.commit.inProgress = false ∧ s.commitMark = false ∧
  (∀ l, (s.lane l).state = .off ∧ (s.lane l).drainTarget = .running ∧ (s.lane l).haltReason = .none ∧
    (s.lane l).anchor = none ∧ (s.lane l).expected = none ∧ (s.lane l).intake = [] ∧ (s.lane l).flight = none ∧
    (s.lane l).abortsOutstanding = 0 ∧ (s.lane l).ackOwed = false ∧ (s.lane l).lastTicket = none ∧
    (s.lane l).enable = false ∧ (s.lane l).laneClass = .normal ∧ (s.lane l).weight = 0 ∧ (s.lane l).relax = 0) ∧
  (∀ l, (s.arb l).credit = 0 ∧ (s.arb l).wait = 0 ∧ (s.arb l).promoted = false ∧ (s.arb l).granted = false) ∧
  s.arbiter.ring = 0 ∧ s.engine.state = .idle ∧ s.engine.slot = none ∧
  (∀ row, row < 240 → s.map.liveLine row = 0) ∧ s.map.staging = List.replicate 240 none ∧
  s.map.pool = List.range' 1 383 ∧ s.map.damaged = [] ∧ s.map.fresh = true ∧ s.store.markedCount = 0 ∧
  s.recorder.queue = [] ∧ s.recorder.position = 15 ∧ s.recorder.tableFull = false ∧ s.mail = Mail.empty

/-! ## What every step keeps -/

/-- R1, R4 to R10: every step keeps the canonical form of memory (log 4), the Map Unit's books and the Line Store's
marked count, each by itself. -/
def Obligations.StepKeepsTheStoresSound : Prop :=
  ∀ s t : State, step s = .next t →
    (Memory.wf s.mem = true → Memory.wf t.mem = true) ∧
    (s.map.Consistent → t.map.Consistent) ∧
    (s.store.Consistent → t.store.Consistent)

/-- R127, R131, R137, R141, R144, R160: every step keeps the agreement of part state, panel, Scan Unit and command in
hand: unless the panel is LIT the Scan Unit is STILL, so every ramp begins and ends with it STILL (log 17). -/
def Obligations.StepKeepsThePartStateConsistent : Prop :=
  ∀ s t : State, s.ModeConsistent → step s = .next t → t.ModeConsistent

/-- R82, R93, R102, R116, R127, R148: every step keeps the queues and counters within what the block has room for. R103,
R105: it keeps to one set in flight for each lane, with the flight note set, which is what holds the ready queue to one
entry for each lane. -/
def Obligations.StepKeepsWithinCapacity : Prop :=
  ∀ s t : State, s.WithinCapacity → s.FlightConsistent → step s = .next t → t.WithinCapacity ∧ t.FlightConsistent

/-- R129 to R143, R146: the part state changes only as Chapter 7 gives, or to OFF at a reset. -/
def Obligations.PartStateChangesAsChapter7Gives : Prop :=
  ∀ (c : Instr) (s t : State), s.ModeConsistent → exec c s = .next t →
    t.mode.part = s.mode.part ∨ s.mode.part.leadsTo t.mode.part = true ∨ c.isReset = true ∧ t.mode.part = .off

/-- R41, R48, R164, R165: memory changes only by a bus write that a command ends or a reset finds begun, and by what
the host wrote before a transfer; a write without bus error puts each byte in its place and leaves every other byte.
Memory is in its canonical form (log 4), which every step keeps. -/
def Obligations.MemoryChangesOnlyByBusWrites : Prop :=
  ∀ (c : Instr) (s t : State), Memory.wf s.mem = true → exec c s = .next t →
    (c.transfer = none → t.mem = s.mem) ∧
    (∀ bus, c.transfer = some bus → bus.host = [] →
      (s.storeOf c = none → t.mem = s.mem) ∧
      (∀ a bs, s.storeOf c = some (a, bs) →
        (∀ x : Word, (∀ i, i < bs.length → x ≠ a + BitVec.ofNat 32 i) →
          Memory.read t.mem x.toNat = Memory.read s.mem x.toNat) ∧
        (bus.error = none → bs.length ≤ 640 → (c.isReset = true → s.port.resetPin = false) →
          ∀ i b, bs[i]? = some b → Memory.read t.mem (a + BitVec.ofNat 32 i).toNat = b)))
end

