-- ==== Sys2Proof/Laws/State.lean ====
section
/-! SUPPORT. What each named update does to each field of the state, so that no proof unfolds a record update. -/

namespace Sys2Proof.Machine

variable (s : State)

/-! ## One lane's share -/

@[simp] theorem PerLane.get_set_same {α : Type} (p : PerLane α) (l : Lane) (v : α) : (p.set l v).get l = v := by
  match l with
  | 0 => rfl
  | 1 => rfl
  | 2 => rfl
  | 3 => rfl

theorem PerLane.get_set {α : Type} (p : PerLane α) (l k : Lane) (v : α) :
    (p.set l v).get k = if k = l then v else p.get k := by
  match l, k with
  | 0, 0 => rfl
  | 0, 1 => rfl
  | 0, 2 => rfl
  | 0, 3 => rfl
  | 1, 0 => rfl
  | 1, 1 => rfl
  | 1, 2 => rfl
  | 1, 3 => rfl
  | 2, 0 => rfl
  | 2, 1 => rfl
  | 2, 2 => rfl
  | 2, 3 => rfl
  | 3, 0 => rfl
  | 3, 1 => rfl
  | 3, 2 => rfl
  | 3, 3 => rfl

@[simp] theorem PerLane.get_ofFn {α : Type} (f : Lane → α) (l : Lane) : (PerLane.ofFn f).get l = f l := by
  match l with
  | 0 => rfl
  | 1 => rfl
  | 2 => rfl
  | 3 => rfl

@[simp] theorem State.lane_setLane_same (l : Lane) (u : LaneUnit) : (s.setLane l u).lane l = u :=
  PerLane.get_set_same _ _ _

theorem State.lane_setLane (l k : Lane) (u : LaneUnit) : (s.setLane l u).lane k = if k = l then u else s.lane k :=
  PerLane.get_set _ _ _ _

/-! ## The named updates, field by field -/

@[simp] theorem State.askFlag_pending (f : Flag) : (s.askFlag f).pending = s.pending := rfl
@[simp] theorem State.askFlag_now (f : Flag) : (s.askFlag f).now = s.now := rfl
@[simp] theorem State.askFlag_powerOns (f : Flag) : (s.askFlag f).powerOns = s.powerOns := rfl
@[simp] theorem State.askFlag_mem (f : Flag) : (s.askFlag f).mem = s.mem := rfl
@[simp] theorem State.askFlag_port (f : Flag) : (s.askFlag f).port = s.port := rfl
@[simp] theorem State.askFlag_mode (f : Flag) : (s.askFlag f).mode = s.mode := rfl
@[simp] theorem State.askFlag_scan (f : Flag) : (s.askFlag f).scan = s.scan := rfl
@[simp] theorem State.askFlag_commit (f : Flag) : (s.askFlag f).commit = s.commit := rfl
@[simp] theorem State.askFlag_lanes (f : Flag) : (s.askFlag f).lanes = s.lanes := rfl
@[simp] theorem State.askFlag_arbiter (f : Flag) : (s.askFlag f).arbiter = s.arbiter := rfl
@[simp] theorem State.askFlag_engine (f : Flag) : (s.askFlag f).engine = s.engine := rfl
@[simp] theorem State.askFlag_map (f : Flag) : (s.askFlag f).map = s.map := rfl
@[simp] theorem State.askFlag_store (f : Flag) : (s.askFlag f).store = s.store := rfl
@[simp] theorem State.askFlag_recorder (f : Flag) : (s.askFlag f).recorder = s.recorder := rfl
@[simp] theorem State.askFlag_mail (f : Flag) :
    (s.askFlag f).mail = { s.mail with flagRequests := s.mail.flagRequests ++ [f] } := rfl

@[simp] theorem State.askFault_pending (sender : FaultSender) (r : FaultRequest) :
    (s.askFault sender r).pending = s.pending := rfl
@[simp] theorem State.askFault_now (sender : FaultSender) (r : FaultRequest) :
    (s.askFault sender r).now = s.now := rfl
@[simp] theorem State.askFault_powerOns (sender : FaultSender) (r : FaultRequest) :
    (s.askFault sender r).powerOns = s.powerOns := rfl
@[simp] theorem State.askFault_mem (sender : FaultSender) (r : FaultRequest) :
    (s.askFault sender r).mem = s.mem := rfl
@[simp] theorem State.askFault_port (sender : FaultSender) (r : FaultRequest) :
    (s.askFault sender r).port = s.port := rfl
@[simp] theorem State.askFault_mode (sender : FaultSender) (r : FaultRequest) :
    (s.askFault sender r).mode = s.mode := rfl
@[simp] theorem State.askFault_scan (sender : FaultSender) (r : FaultRequest) :
    (s.askFault sender r).scan = s.scan := rfl
@[simp] theorem State.askFault_commit (sender : FaultSender) (r : FaultRequest) :
    (s.askFault sender r).commit = s.commit := rfl
@[simp] theorem State.askFault_lanes (sender : FaultSender) (r : FaultRequest) :
    (s.askFault sender r).lanes = s.lanes := rfl
@[simp] theorem State.askFault_arbiter (sender : FaultSender) (r : FaultRequest) :
    (s.askFault sender r).arbiter = s.arbiter := rfl
@[simp] theorem State.askFault_engine (sender : FaultSender) (r : FaultRequest) :
    (s.askFault sender r).engine = s.engine := rfl
@[simp] theorem State.askFault_map (sender : FaultSender) (r : FaultRequest) :
    (s.askFault sender r).map = s.map := rfl
@[simp] theorem State.askFault_store (sender : FaultSender) (r : FaultRequest) :
    (s.askFault sender r).store = s.store := rfl
@[simp] theorem State.askFault_recorder (sender : FaultSender) (r : FaultRequest) :
    (s.askFault sender r).recorder = s.recorder := rfl
@[simp] theorem State.askFault_mail (sender : FaultSender) (r : FaultRequest) :
    (s.askFault sender r).mail = { s.mail with faultRequests := s.mail.faultRequests ++ [(sender, r)] } := rfl

@[simp] theorem State.order_pending (o : ScanOrder) : (s.order o).pending = s.pending := rfl
@[simp] theorem State.order_now (o : ScanOrder) : (s.order o).now = s.now := rfl
@[simp] theorem State.order_powerOns (o : ScanOrder) : (s.order o).powerOns = s.powerOns := rfl
@[simp] theorem State.order_mem (o : ScanOrder) : (s.order o).mem = s.mem := rfl
@[simp] theorem State.order_port (o : ScanOrder) : (s.order o).port = s.port := rfl
@[simp] theorem State.order_mode (o : ScanOrder) : (s.order o).mode = s.mode := rfl
@[simp] theorem State.order_scan (o : ScanOrder) : (s.order o).scan = s.scan := rfl
@[simp] theorem State.order_commit (o : ScanOrder) : (s.order o).commit = s.commit := rfl
@[simp] theorem State.order_lanes (o : ScanOrder) : (s.order o).lanes = s.lanes := rfl
@[simp] theorem State.order_arbiter (o : ScanOrder) : (s.order o).arbiter = s.arbiter := rfl
@[simp] theorem State.order_engine (o : ScanOrder) : (s.order o).engine = s.engine := rfl
@[simp] theorem State.order_map (o : ScanOrder) : (s.order o).map = s.map := rfl
@[simp] theorem State.order_store (o : ScanOrder) : (s.order o).store = s.store := rfl
@[simp] theorem State.order_recorder (o : ScanOrder) : (s.order o).recorder = s.recorder := rfl
@[simp] theorem State.order_mail (o : ScanOrder) :
    (s.order o).mail = { s.mail with scanOrders := s.mail.scanOrders ++ [o] } := rfl

@[simp] theorem State.sendStop_pending : (s.sendStop).pending = s.pending := rfl
@[simp] theorem State.sendStop_now : (s.sendStop).now = s.now := rfl
@[simp] theorem State.sendStop_powerOns : (s.sendStop).powerOns = s.powerOns := rfl
@[simp] theorem State.sendStop_mem : (s.sendStop).mem = s.mem := rfl
@[simp] theorem State.sendStop_port : (s.sendStop).port = s.port := rfl
@[simp] theorem State.sendStop_mode : (s.sendStop).mode = s.mode := rfl
@[simp] theorem State.sendStop_scan : (s.sendStop).scan = s.scan := rfl
@[simp] theorem State.sendStop_commit : (s.sendStop).commit = s.commit := rfl
@[simp] theorem State.sendStop_lanes : (s.sendStop).lanes = s.lanes := rfl
@[simp] theorem State.sendStop_arbiter : (s.sendStop).arbiter = s.arbiter := rfl
@[simp] theorem State.sendStop_engine : (s.sendStop).engine = s.engine := rfl
@[simp] theorem State.sendStop_map : (s.sendStop).map = s.map := rfl
@[simp] theorem State.sendStop_store : (s.sendStop).store = s.store := rfl
@[simp] theorem State.sendStop_recorder : (s.sendStop).recorder = s.recorder := rfl
@[simp] theorem State.sendStop_mail : (s.sendStop).mail = { s.mail with stopNotice := true, abortStop := true } := rfl

@[simp] theorem State.orderTaken_pending (rest : List ScanOrder) : (s.orderTaken rest).pending = s.pending := rfl
@[simp] theorem State.orderTaken_now (rest : List ScanOrder) : (s.orderTaken rest).now = s.now := rfl
@[simp] theorem State.orderTaken_powerOns (rest : List ScanOrder) : (s.orderTaken rest).powerOns = s.powerOns := rfl
@[simp] theorem State.orderTaken_mem (rest : List ScanOrder) : (s.orderTaken rest).mem = s.mem := rfl
@[simp] theorem State.orderTaken_port (rest : List ScanOrder) : (s.orderTaken rest).port = s.port := rfl
@[simp] theorem State.orderTaken_mode (rest : List ScanOrder) : (s.orderTaken rest).mode = s.mode := rfl
@[simp] theorem State.orderTaken_scan (rest : List ScanOrder) : (s.orderTaken rest).scan = s.scan := rfl
@[simp] theorem State.orderTaken_commit (rest : List ScanOrder) : (s.orderTaken rest).commit = s.commit := rfl
@[simp] theorem State.orderTaken_lanes (rest : List ScanOrder) : (s.orderTaken rest).lanes = s.lanes := rfl
@[simp] theorem State.orderTaken_arbiter (rest : List ScanOrder) : (s.orderTaken rest).arbiter = s.arbiter := rfl
@[simp] theorem State.orderTaken_engine (rest : List ScanOrder) : (s.orderTaken rest).engine = s.engine := rfl
@[simp] theorem State.orderTaken_map (rest : List ScanOrder) : (s.orderTaken rest).map = s.map := rfl
@[simp] theorem State.orderTaken_store (rest : List ScanOrder) : (s.orderTaken rest).store = s.store := rfl
@[simp] theorem State.orderTaken_recorder (rest : List ScanOrder) : (s.orderTaken rest).recorder = s.recorder := rfl
@[simp] theorem State.orderTaken_mail (rest : List ScanOrder) :
    (s.orderTaken rest).mail = { s.mail with scanOrders := rest } := rfl

@[simp] theorem State.setMode_pending (m : ModeController) : (s.setMode m).pending = s.pending := rfl
@[simp] theorem State.setMode_now (m : ModeController) : (s.setMode m).now = s.now := rfl
@[simp] theorem State.setMode_powerOns (m : ModeController) : (s.setMode m).powerOns = s.powerOns := rfl
@[simp] theorem State.setMode_mem (m : ModeController) : (s.setMode m).mem = s.mem := rfl
@[simp] theorem State.setMode_port (m : ModeController) : (s.setMode m).port = s.port := rfl
@[simp] theorem State.setMode_mode (m : ModeController) : (s.setMode m).mode = m := rfl
@[simp] theorem State.setMode_scan (m : ModeController) : (s.setMode m).scan = s.scan := rfl
@[simp] theorem State.setMode_commit (m : ModeController) : (s.setMode m).commit = s.commit := rfl
@[simp] theorem State.setMode_lanes (m : ModeController) : (s.setMode m).lanes = s.lanes := rfl
@[simp] theorem State.setMode_arbiter (m : ModeController) : (s.setMode m).arbiter = s.arbiter := rfl
@[simp] theorem State.setMode_engine (m : ModeController) : (s.setMode m).engine = s.engine := rfl
@[simp] theorem State.setMode_map (m : ModeController) : (s.setMode m).map = s.map := rfl
@[simp] theorem State.setMode_store (m : ModeController) : (s.setMode m).store = s.store := rfl
@[simp] theorem State.setMode_recorder (m : ModeController) : (s.setMode m).recorder = s.recorder := rfl
@[simp] theorem State.setMode_mail (m : ModeController) : (s.setMode m).mail = s.mail := rfl

@[simp] theorem State.giveResult_pending (r : CommandResult) : (s.giveResult r).pending = s.pending := rfl
@[simp] theorem State.giveResult_now (r : CommandResult) : (s.giveResult r).now = s.now := rfl
@[simp] theorem State.giveResult_powerOns (r : CommandResult) : (s.giveResult r).powerOns = s.powerOns := rfl
@[simp] theorem State.giveResult_mem (r : CommandResult) : (s.giveResult r).mem = s.mem := rfl
@[simp] theorem State.giveResult_port (r : CommandResult) : (s.giveResult r).port = s.port := rfl
@[simp] theorem State.giveResult_mode (r : CommandResult) :
    (s.giveResult r).mode = { s.mode with command := .answered r } := rfl
@[simp] theorem State.giveResult_scan (r : CommandResult) : (s.giveResult r).scan = s.scan := rfl
@[simp] theorem State.giveResult_commit (r : CommandResult) : (s.giveResult r).commit = s.commit := rfl
@[simp] theorem State.giveResult_lanes (r : CommandResult) : (s.giveResult r).lanes = s.lanes := rfl
@[simp] theorem State.giveResult_arbiter (r : CommandResult) : (s.giveResult r).arbiter = s.arbiter := rfl
@[simp] theorem State.giveResult_engine (r : CommandResult) : (s.giveResult r).engine = s.engine := rfl
@[simp] theorem State.giveResult_map (r : CommandResult) : (s.giveResult r).map = s.map := rfl
@[simp] theorem State.giveResult_store (r : CommandResult) : (s.giveResult r).store = s.store := rfl
@[simp] theorem State.giveResult_recorder (r : CommandResult) : (s.giveResult r).recorder = s.recorder := rfl
@[simp] theorem State.giveResult_mail (r : CommandResult) : (s.giveResult r).mail = s.mail := rfl

@[simp] theorem State.setEnables_pending (e : BitVec 5) : (s.setEnables e).pending = s.pending := rfl
@[simp] theorem State.setEnables_now (e : BitVec 5) : (s.setEnables e).now = s.now := rfl
@[simp] theorem State.setEnables_powerOns (e : BitVec 5) : (s.setEnables e).powerOns = s.powerOns := rfl
@[simp] theorem State.setEnables_mem (e : BitVec 5) : (s.setEnables e).mem = s.mem := rfl
@[simp] theorem State.setEnables_port (e : BitVec 5) :
    (s.setEnables e).port = { s.port with enables := .ofBits e } := rfl
@[simp] theorem State.setEnables_mode (e : BitVec 5) : (s.setEnables e).mode = s.mode := rfl
@[simp] theorem State.setEnables_scan (e : BitVec 5) : (s.setEnables e).scan = s.scan := rfl
@[simp] theorem State.setEnables_commit (e : BitVec 5) : (s.setEnables e).commit = s.commit := rfl
@[simp] theorem State.setEnables_lanes (e : BitVec 5) : (s.setEnables e).lanes = s.lanes := rfl
@[simp] theorem State.setEnables_arbiter (e : BitVec 5) : (s.setEnables e).arbiter = s.arbiter := rfl
@[simp] theorem State.setEnables_engine (e : BitVec 5) : (s.setEnables e).engine = s.engine := rfl
@[simp] theorem State.setEnables_map (e : BitVec 5) : (s.setEnables e).map = s.map := rfl
@[simp] theorem State.setEnables_store (e : BitVec 5) : (s.setEnables e).store = s.store := rfl
@[simp] theorem State.setEnables_recorder (e : BitVec 5) : (s.setEnables e).recorder = s.recorder := rfl
@[simp] theorem State.setEnables_mail (e : BitVec 5) : (s.setEnables e).mail = s.mail := rfl

@[simp] theorem State.setLane_pending (l : Lane) (u : LaneUnit) : (s.setLane l u).pending = s.pending := rfl
@[simp] theorem State.setLane_now (l : Lane) (u : LaneUnit) : (s.setLane l u).now = s.now := rfl
@[simp] theorem State.setLane_powerOns (l : Lane) (u : LaneUnit) : (s.setLane l u).powerOns = s.powerOns := rfl
@[simp] theorem State.setLane_mem (l : Lane) (u : LaneUnit) : (s.setLane l u).mem = s.mem := rfl
@[simp] theorem State.setLane_port (l : Lane) (u : LaneUnit) : (s.setLane l u).port = s.port := rfl
@[simp] theorem State.setLane_mode (l : Lane) (u : LaneUnit) : (s.setLane l u).mode = s.mode := rfl
@[simp] theorem State.setLane_scan (l : Lane) (u : LaneUnit) : (s.setLane l u).scan = s.scan := rfl
@[simp] theorem State.setLane_commit (l : Lane) (u : LaneUnit) : (s.setLane l u).commit = s.commit := rfl
@[simp] theorem State.setLane_lanes (l : Lane) (u : LaneUnit) :
    (s.setLane l u).lanes = { s.lanes with lanes := s.lanes.lanes.set l u } := rfl
@[simp] theorem State.setLane_arbiter (l : Lane) (u : LaneUnit) : (s.setLane l u).arbiter = s.arbiter := rfl
@[simp] theorem State.setLane_engine (l : Lane) (u : LaneUnit) : (s.setLane l u).engine = s.engine := rfl
@[simp] theorem State.setLane_map (l : Lane) (u : LaneUnit) : (s.setLane l u).map = s.map := rfl
@[simp] theorem State.setLane_store (l : Lane) (u : LaneUnit) : (s.setLane l u).store = s.store := rfl
@[simp] theorem State.setLane_recorder (l : Lane) (u : LaneUnit) : (s.setLane l u).recorder = s.recorder := rfl
@[simp] theorem State.setLane_mail (l : Lane) (u : LaneUnit) : (s.setLane l u).mail = s.mail := rfl

@[simp] theorem State.setAgenda_pending (ts : List LaneTask) : (s.setAgenda ts).pending = s.pending := rfl
@[simp] theorem State.setAgenda_now (ts : List LaneTask) : (s.setAgenda ts).now = s.now := rfl
@[simp] theorem State.setAgenda_powerOns (ts : List LaneTask) : (s.setAgenda ts).powerOns = s.powerOns := rfl
@[simp] theorem State.setAgenda_mem (ts : List LaneTask) : (s.setAgenda ts).mem = s.mem := rfl
@[simp] theorem State.setAgenda_port (ts : List LaneTask) : (s.setAgenda ts).port = s.port := rfl
@[simp] theorem State.setAgenda_mode (ts : List LaneTask) : (s.setAgenda ts).mode = s.mode := rfl
@[simp] theorem State.setAgenda_scan (ts : List LaneTask) : (s.setAgenda ts).scan = s.scan := rfl
@[simp] theorem State.setAgenda_commit (ts : List LaneTask) : (s.setAgenda ts).commit = s.commit := rfl
@[simp] theorem State.setAgenda_lanes (ts : List LaneTask) :
    (s.setAgenda ts).lanes = { s.lanes with agenda := ts } := rfl
@[simp] theorem State.setAgenda_arbiter (ts : List LaneTask) : (s.setAgenda ts).arbiter = s.arbiter := rfl
@[simp] theorem State.setAgenda_engine (ts : List LaneTask) : (s.setAgenda ts).engine = s.engine := rfl
@[simp] theorem State.setAgenda_map (ts : List LaneTask) : (s.setAgenda ts).map = s.map := rfl
@[simp] theorem State.setAgenda_store (ts : List LaneTask) : (s.setAgenda ts).store = s.store := rfl
@[simp] theorem State.setAgenda_recorder (ts : List LaneTask) : (s.setAgenda ts).recorder = s.recorder := rfl
@[simp] theorem State.setAgenda_mail (ts : List LaneTask) : (s.setAgenda ts).mail = s.mail := rfl

@[simp] theorem State.setPhase_pending (p : PollPhase) : (s.setPhase p).pending = s.pending := rfl
@[simp] theorem State.setPhase_now (p : PollPhase) : (s.setPhase p).now = s.now := rfl
@[simp] theorem State.setPhase_powerOns (p : PollPhase) : (s.setPhase p).powerOns = s.powerOns := rfl
@[simp] theorem State.setPhase_mem (p : PollPhase) : (s.setPhase p).mem = s.mem := rfl
@[simp] theorem State.setPhase_port (p : PollPhase) : (s.setPhase p).port = s.port := rfl
@[simp] theorem State.setPhase_mode (p : PollPhase) : (s.setPhase p).mode = s.mode := rfl
@[simp] theorem State.setPhase_scan (p : PollPhase) : (s.setPhase p).scan = s.scan := rfl
@[simp] theorem State.setPhase_commit (p : PollPhase) : (s.setPhase p).commit = s.commit := rfl
@[simp] theorem State.setPhase_lanes (p : PollPhase) :
    (s.setPhase p).lanes = { s.lanes with job := s.lanes.job.map fun j => { j with phase := p } } := rfl
@[simp] theorem State.setPhase_arbiter (p : PollPhase) : (s.setPhase p).arbiter = s.arbiter := rfl
@[simp] theorem State.setPhase_engine (p : PollPhase) : (s.setPhase p).engine = s.engine := rfl
@[simp] theorem State.setPhase_map (p : PollPhase) : (s.setPhase p).map = s.map := rfl
@[simp] theorem State.setPhase_store (p : PollPhase) : (s.setPhase p).store = s.store := rfl
@[simp] theorem State.setPhase_recorder (p : PollPhase) : (s.setPhase p).recorder = s.recorder := rfl
@[simp] theorem State.setPhase_mail (p : PollPhase) : (s.setPhase p).mail = s.mail := rfl

@[simp] theorem State.setLink_pending (k : EngineLink) : (s.setLink k).pending = s.pending := rfl
@[simp] theorem State.setLink_now (k : EngineLink) : (s.setLink k).now = s.now := rfl
@[simp] theorem State.setLink_powerOns (k : EngineLink) : (s.setLink k).powerOns = s.powerOns := rfl
@[simp] theorem State.setLink_mem (k : EngineLink) : (s.setLink k).mem = s.mem := rfl
@[simp] theorem State.setLink_port (k : EngineLink) : (s.setLink k).port = s.port := rfl
@[simp] theorem State.setLink_mode (k : EngineLink) : (s.setLink k).mode = s.mode := rfl
@[simp] theorem State.setLink_scan (k : EngineLink) : (s.setLink k).scan = s.scan := rfl
@[simp] theorem State.setLink_commit (k : EngineLink) : (s.setLink k).commit = s.commit := rfl
@[simp] theorem State.setLink_lanes (k : EngineLink) : (s.setLink k).lanes = s.lanes := rfl
@[simp] theorem State.setLink_arbiter (k : EngineLink) : (s.setLink k).arbiter = s.arbiter := rfl
@[simp] theorem State.setLink_engine (k : EngineLink) : (s.setLink k).engine = { s.engine with link := k } := rfl
@[simp] theorem State.setLink_map (k : EngineLink) : (s.setLink k).map = s.map := rfl
@[simp] theorem State.setLink_store (k : EngineLink) : (s.setLink k).store = s.store := rfl
@[simp] theorem State.setLink_recorder (k : EngineLink) : (s.setLink k).recorder = s.recorder := rfl
@[simp] theorem State.setLink_mail (k : EngineLink) : (s.setLink k).mail = s.mail := rfl

@[simp] theorem State.setSlot_pending (sl : Slot) (k : EngineLink) : (s.setSlot sl k).pending = s.pending := rfl
@[simp] theorem State.setSlot_now (sl : Slot) (k : EngineLink) : (s.setSlot sl k).now = s.now := rfl
@[simp] theorem State.setSlot_powerOns (sl : Slot) (k : EngineLink) : (s.setSlot sl k).powerOns = s.powerOns := rfl
@[simp] theorem State.setSlot_mem (sl : Slot) (k : EngineLink) : (s.setSlot sl k).mem = s.mem := rfl
@[simp] theorem State.setSlot_port (sl : Slot) (k : EngineLink) : (s.setSlot sl k).port = s.port := rfl
@[simp] theorem State.setSlot_mode (sl : Slot) (k : EngineLink) : (s.setSlot sl k).mode = s.mode := rfl
@[simp] theorem State.setSlot_scan (sl : Slot) (k : EngineLink) : (s.setSlot sl k).scan = s.scan := rfl
@[simp] theorem State.setSlot_commit (sl : Slot) (k : EngineLink) : (s.setSlot sl k).commit = s.commit := rfl
@[simp] theorem State.setSlot_lanes (sl : Slot) (k : EngineLink) : (s.setSlot sl k).lanes = s.lanes := rfl
@[simp] theorem State.setSlot_arbiter (sl : Slot) (k : EngineLink) : (s.setSlot sl k).arbiter = s.arbiter := rfl
@[simp] theorem State.setSlot_engine (sl : Slot) (k : EngineLink) :
    (s.setSlot sl k).engine = { s.engine with slot := some sl, link := k } := rfl
@[simp] theorem State.setSlot_map (sl : Slot) (k : EngineLink) : (s.setSlot sl k).map = s.map := rfl
@[simp] theorem State.setSlot_store (sl : Slot) (k : EngineLink) : (s.setSlot sl k).store = s.store := rfl
@[simp] theorem State.setSlot_recorder (sl : Slot) (k : EngineLink) : (s.setSlot sl k).recorder = s.recorder := rfl
@[simp] theorem State.setSlot_mail (sl : Slot) (k : EngineLink) : (s.setSlot sl k).mail = s.mail := rfl

@[simp] theorem State.withdrawRequest_pending : (s.withdrawRequest).pending = s.pending := rfl
@[simp] theorem State.withdrawRequest_now : (s.withdrawRequest).now = s.now := rfl
@[simp] theorem State.withdrawRequest_powerOns : (s.withdrawRequest).powerOns = s.powerOns := rfl
@[simp] theorem State.withdrawRequest_mem : (s.withdrawRequest).mem = s.mem := rfl
@[simp] theorem State.withdrawRequest_port : (s.withdrawRequest).port = s.port := rfl
@[simp] theorem State.withdrawRequest_mode : (s.withdrawRequest).mode = s.mode := rfl
@[simp] theorem State.withdrawRequest_scan : (s.withdrawRequest).scan = s.scan := rfl
@[simp] theorem State.withdrawRequest_commit : (s.withdrawRequest).commit = s.commit := rfl
@[simp] theorem State.withdrawRequest_lanes : (s.withdrawRequest).lanes = s.lanes := rfl
@[simp] theorem State.withdrawRequest_arbiter :
    (s.withdrawRequest).arbiter = { s.arbiter with requestWaiting := false } := rfl
@[simp] theorem State.withdrawRequest_engine : (s.withdrawRequest).engine = s.engine := rfl
@[simp] theorem State.withdrawRequest_map : (s.withdrawRequest).map = s.map := rfl
@[simp] theorem State.withdrawRequest_store : (s.withdrawRequest).store = s.store := rfl
@[simp] theorem State.withdrawRequest_recorder : (s.withdrawRequest).recorder = s.recorder := rfl
@[simp] theorem State.withdrawRequest_mail : (s.withdrawRequest).mail = s.mail := rfl

@[simp] theorem State.busRead_pending (bus : BusEvent) : (s.busRead bus).pending = s.pending := rfl
@[simp] theorem State.busRead_now (bus : BusEvent) : (s.busRead bus).now = s.now := rfl
@[simp] theorem State.busRead_powerOns (bus : BusEvent) : (s.busRead bus).powerOns = s.powerOns := rfl
@[simp] theorem State.busRead_mem (bus : BusEvent) : (s.busRead bus).mem = Memory.hostWrites s.mem bus.host := rfl
@[simp] theorem State.busRead_port (bus : BusEvent) : (s.busRead bus).port = s.port := rfl
@[simp] theorem State.busRead_mode (bus : BusEvent) : (s.busRead bus).mode = s.mode := rfl
@[simp] theorem State.busRead_scan (bus : BusEvent) : (s.busRead bus).scan = s.scan := rfl
@[simp] theorem State.busRead_commit (bus : BusEvent) : (s.busRead bus).commit = s.commit := rfl
@[simp] theorem State.busRead_lanes (bus : BusEvent) : (s.busRead bus).lanes = s.lanes := rfl
@[simp] theorem State.busRead_arbiter (bus : BusEvent) : (s.busRead bus).arbiter = s.arbiter := rfl
@[simp] theorem State.busRead_engine (bus : BusEvent) : (s.busRead bus).engine = s.engine := rfl
@[simp] theorem State.busRead_map (bus : BusEvent) : (s.busRead bus).map = s.map := rfl
@[simp] theorem State.busRead_store (bus : BusEvent) : (s.busRead bus).store = s.store := rfl
@[simp] theorem State.busRead_recorder (bus : BusEvent) : (s.busRead bus).recorder = s.recorder := rfl
@[simp] theorem State.busRead_mail (bus : BusEvent) : (s.busRead bus).mail = s.mail := rfl

@[simp] theorem State.busWrite_pending (bus : BusEvent) (a : Word) (bs : List Byte) :
    (s.busWrite bus a bs).pending = s.pending := rfl
@[simp] theorem State.busWrite_now (bus : BusEvent) (a : Word) (bs : List Byte) :
    (s.busWrite bus a bs).now = s.now := rfl
@[simp] theorem State.busWrite_powerOns (bus : BusEvent) (a : Word) (bs : List Byte) :
    (s.busWrite bus a bs).powerOns = s.powerOns := rfl
@[simp] theorem State.busWrite_mem (bus : BusEvent) (a : Word) (bs : List Byte) :
    (s.busWrite bus a bs).mem = busWriteMemory bus s.mem a bs := rfl
@[simp] theorem State.busWrite_port (bus : BusEvent) (a : Word) (bs : List Byte) :
    (s.busWrite bus a bs).port = s.port := rfl
@[simp] theorem State.busWrite_mode (bus : BusEvent) (a : Word) (bs : List Byte) :
    (s.busWrite bus a bs).mode = s.mode := rfl
@[simp] theorem State.busWrite_scan (bus : BusEvent) (a : Word) (bs : List Byte) :
    (s.busWrite bus a bs).scan = s.scan := rfl
@[simp] theorem State.busWrite_commit (bus : BusEvent) (a : Word) (bs : List Byte) :
    (s.busWrite bus a bs).commit = s.commit := rfl
@[simp] theorem State.busWrite_lanes (bus : BusEvent) (a : Word) (bs : List Byte) :
    (s.busWrite bus a bs).lanes = s.lanes := rfl
@[simp] theorem State.busWrite_arbiter (bus : BusEvent) (a : Word) (bs : List Byte) :
    (s.busWrite bus a bs).arbiter = s.arbiter := rfl
@[simp] theorem State.busWrite_engine (bus : BusEvent) (a : Word) (bs : List Byte) :
    (s.busWrite bus a bs).engine = s.engine := rfl
@[simp] theorem State.busWrite_map (bus : BusEvent) (a : Word) (bs : List Byte) :
    (s.busWrite bus a bs).map = s.map := rfl
@[simp] theorem State.busWrite_store (bus : BusEvent) (a : Word) (bs : List Byte) :
    (s.busWrite bus a bs).store = s.store := rfl
@[simp] theorem State.busWrite_recorder (bus : BusEvent) (a : Word) (bs : List Byte) :
    (s.busWrite bus a bs).recorder = s.recorder := rfl
@[simp] theorem State.busWrite_mail (bus : BusEvent) (a : Word) (bs : List Byte) :
    (s.busWrite bus a bs).mail = s.mail := rfl

/-! ## What a lane is after an update that leaves the lanes alone -/

@[simp] theorem State.askFlag_lane (f : Flag) (l : Lane) : (s.askFlag f).lane l = s.lane l := rfl
@[simp] theorem State.askFault_lane (sender : FaultSender) (r : FaultRequest) (l : Lane) : (s.askFault sender r).lane l = s.lane l := rfl
@[simp] theorem State.order_lane (o : ScanOrder) (l : Lane) : (s.order o).lane l = s.lane l := rfl
@[simp] theorem State.sendStop_lane (l : Lane) : (s.sendStop).lane l = s.lane l := rfl
@[simp] theorem State.orderTaken_lane (rest : List ScanOrder) (l : Lane) : (s.orderTaken rest).lane l = s.lane l := rfl
@[simp] theorem State.setMode_lane (m : ModeController) (l : Lane) : (s.setMode m).lane l = s.lane l := rfl
@[simp] theorem State.giveResult_lane (r : CommandResult) (l : Lane) : (s.giveResult r).lane l = s.lane l := rfl
@[simp] theorem State.setEnables_lane (e : BitVec 5) (l : Lane) : (s.setEnables e).lane l = s.lane l := rfl
@[simp] theorem State.setAgenda_lane (ts : List LaneTask) (l : Lane) : (s.setAgenda ts).lane l = s.lane l := rfl
@[simp] theorem State.setPhase_lane (p : PollPhase) (l : Lane) : (s.setPhase p).lane l = s.lane l := rfl
@[simp] theorem State.setLink_lane (k : EngineLink) (l : Lane) : (s.setLink k).lane l = s.lane l := rfl
@[simp] theorem State.setSlot_lane (sl : Slot) (k : EngineLink) (l : Lane) : (s.setSlot sl k).lane l = s.lane l := rfl
@[simp] theorem State.withdrawRequest_lane (l : Lane) : (s.withdrawRequest).lane l = s.lane l := rfl
@[simp] theorem State.busRead_lane (bus : BusEvent) (l : Lane) : (s.busRead bus).lane l = s.lane l := rfl
@[simp] theorem State.busWrite_lane (bus : BusEvent) (a : Word) (bs : List Byte) (l : Lane) : (s.busWrite bus a bs).lane l = s.lane l := rfl

end Sys2Proof.Machine
end

