-- ==== Sys2Proof/Laws/Frames.lean ====
section
/-! SUPPORT. What the shared operations leave alone: the queue of commands, system memory, the clock, the power-on count
and the exchange area base. One lemma for each shared operation. -/

namespace Sys2Proof.Machine

/-- `t` has the queue, the memory, the clock, the power-on count and the exchange area base of `s`. -/
structure State.Keeps (s t : State) : Prop where
  pending  : t.pending = s.pending
  mem      : t.mem = s.mem
  now      : t.now = s.now
  powerOns : t.powerOns = s.powerOns
  exb      : t.port.exb = s.port.exb

theorem State.Keeps.refl (s : State) : s.Keeps s := ⟨rfl, rfl, rfl, rfl, rfl⟩

theorem State.Keeps.trans {s t u : State} (h : s.Keeps t) (h' : t.Keeps u) : s.Keeps u :=
  ⟨h'.pending.trans h.pending, h'.mem.trans h.mem, h'.now.trans h.now, h'.powerOns.trans h.powerOns,
    h'.exb.trans h.exb⟩

theorem keeps_ite {s a b : State} {p : Prop} [Decidable p] (ha : s.Keeps a) (hb : s.Keeps b) :
    s.Keeps (if p then a else b) := by split <;> assumption

variable (s : State)

/-! ## Simple updates -/

theorem keeps_askFlag (f : Flag) : s.Keeps (s.askFlag f) := ⟨rfl, rfl, rfl, rfl, rfl⟩
theorem keeps_askFault (x : FaultSender) (r : FaultRequest) : s.Keeps (s.askFault x r) := ⟨rfl, rfl, rfl, rfl, rfl⟩
theorem keeps_order (o : ScanOrder) : s.Keeps (s.order o) := ⟨rfl, rfl, rfl, rfl, rfl⟩
theorem keeps_sendStop : s.Keeps s.sendStop := ⟨rfl, rfl, rfl, rfl, rfl⟩
theorem keeps_orderTaken (rest : List ScanOrder) : s.Keeps (s.orderTaken rest) := ⟨rfl, rfl, rfl, rfl, rfl⟩
theorem keeps_setMode (m : ModeController) : s.Keeps (s.setMode m) := ⟨rfl, rfl, rfl, rfl, rfl⟩
theorem keeps_giveResult (r : CommandResult) : s.Keeps (s.giveResult r) := ⟨rfl, rfl, rfl, rfl, rfl⟩
theorem keeps_setEnables (e : BitVec 5) : s.Keeps (s.setEnables e) := ⟨rfl, rfl, rfl, rfl, rfl⟩
theorem keeps_setLane (l : Lane) (u : LaneUnit) : s.Keeps (s.setLane l u) := ⟨rfl, rfl, rfl, rfl, rfl⟩
theorem keeps_setAgenda (ts : List LaneTask) : s.Keeps (s.setAgenda ts) := ⟨rfl, rfl, rfl, rfl, rfl⟩
theorem keeps_setPhase (p : PollPhase) : s.Keeps (s.setPhase p) := ⟨rfl, rfl, rfl, rfl, rfl⟩
theorem keeps_setLink (k : EngineLink) : s.Keeps (s.setLink k) := ⟨rfl, rfl, rfl, rfl, rfl⟩
theorem keeps_setSlot (sl : Slot) (k : EngineLink) : s.Keeps (s.setSlot sl k) := ⟨rfl, rfl, rfl, rfl, rfl⟩
theorem keeps_withdrawRequest : s.Keeps s.withdrawRequest := ⟨rfl, rfl, rfl, rfl, rfl⟩

/-! ## The Apply Engine -/

theorem keeps_abortSet (sl : Slot) (unwind : Bool) (o : SetOutcome) (i : Option Nat) :
    s.Keeps (s.abortSet sl unwind o i) := ⟨rfl, rfl, rfl, rfl, rfl⟩

theorem keeps_opDone (sl : Slot) : s.Keeps (s.opDone sl) := ⟨rfl, rfl, rfl, rfl, rfl⟩

theorem keeps_beginOp (sl : Slot) (op : OpRecord) (k : OpKind) : s.Keeps (s.beginOp sl op k) := by
  cases k <;> exact ⟨rfl, rfl, rfl, rfl, rfl⟩

theorem keeps_lineNamed (sl : Slot) (op : OpRecord) (line : Nat) : s.Keeps (s.lineNamed sl op line) := by
  unfold State.lineNamed
  split
  · exact keeps_setSlot s _ _
  · exact keeps_ite (keeps_setSlot s _ _) (keeps_setSlot s _ _)
  all_goals exact .refl s

theorem keeps_spansDone (sl : Slot) (op : OpRecord) : s.Keeps (s.spansDone sl op) := by
  unfold State.spansDone
  split
  · exact keeps_ite (keeps_setSlot s _ _) (keeps_opDone s _)
  · exact keeps_ite (keeps_setSlot s _ _) (keeps_opDone s _)
  all_goals exact .refl s

theorem keeps_damageMet (sl : Slot) (line row : Nat) (newly : Bool) : s.Keeps (s.damageMet sl line row newly) := by
  unfold State.damageMet
  have h : s.Keeps (if newly then s.askFault .engine (lineDamagedRequest sl line row) else s) :=
    keeps_ite (keeps_askFault s _ _) (.refl s)
  dsimp only
  split
  · exact h.trans (keeps_abortSet _ _ _ _ _)
  · exact h.trans (keeps_abortSet _ _ _ _ _)

theorem keeps_requestAbort (sl : Slot) (c : AbortCause) : s.Keeps (s.requestAbort sl c) := by
  unfold State.requestAbort
  exact keeps_ite (.refl s) (keeps_ite (keeps_abortSet s _ _ _ _) ⟨rfl, rfl, rfl, rfl, rfl⟩)

/-! ## The Line Store and the Grant Arbiter -/

theorem keeps_reportMark (line n : Nat) : s.Keeps (s.reportMark line n) := by
  unfold State.reportMark
  dsimp only
  split
  · exact ⟨rfl, rfl, rfl, rfl, rfl⟩
  · exact ⟨rfl, rfl, rfl, rfl, rfl⟩

theorem keeps_serveRead (n : Nat) (flaws : List (Nat × Flaw)) : s.Keeps (s.serveRead n flaws) := by
  unfold State.serveRead
  split
  · refine State.Keeps.trans ?_ (keeps_reportMark _ _ _)
    exact ⟨rfl, rfl, rfl, rfl, rfl⟩
  all_goals exact ⟨rfl, rfl, rfl, rfl, rfl⟩

theorem keeps_trySelect : s.Keeps s.trySelect := by
  unfold State.trySelect
  split
  · split
    · exact .refl s
    · dsimp only
      split
      · exact ⟨rfl, rfl, rfl, rfl, rfl⟩
      · exact ⟨rfl, rfl, rfl, rfl, rfl⟩
  · exact .refl s

theorem keeps_startNotice : s.Keeps s.startNotice := ⟨rfl, rfl, rfl, rfl, rfl⟩

/-! ## The Scan Unit and the Commit Unit -/

theorem keeps_raiseBoundary : s.Keeps s.raiseBoundary := ⟨rfl, rfl, rfl, rfl, rfl⟩

theorem keeps_haltScan : s.Keeps s.haltScan := by
  unfold State.haltScan
  exact keeps_ite (.refl s) ⟨rfl, rfl, rfl, rfl, rfl⟩

theorem keeps_haltTaken : s.Keeps s.haltTaken := by
  unfold State.haltTaken
  exact keeps_ite ⟨rfl, rfl, rfl, rfl, rfl⟩ (.refl s)

theorem keeps_afterRow (row : Nat) : s.Keeps (s.afterRow row) := by
  unfold State.afterRow
  exact keeps_ite ⟨rfl, rfl, rfl, rfl, rfl⟩ (keeps_ite ⟨rfl, rfl, rfl, rfl, rfl⟩ (keeps_raiseBoundary s))

theorem keeps_reportRowDamage (row : Nat) : s.Keeps (s.reportRowDamage row) := by
  unfold State.reportRowDamage
  split
  · exact keeps_askFault s _ _
  · exact .refl s

theorem keeps_completePublication : s.Keeps s.completePublication := ⟨rfl, rfl, rfl, rfl, rfl⟩

theorem keeps_entryLeaves : s.Keeps s.entryLeaves := ⟨rfl, rfl, rfl, rfl, rfl⟩

/-! ## The Fault Recorder -/

theorem keeps_takeFault : s.Keeps s.takeFault := by
  unfold State.takeFault
  split
  · exact keeps_ite ⟨rfl, rfl, rfl, rfl, rfl⟩ ⟨rfl, rfl, rfl, rfl, rfl⟩
  · exact .refl s

theorem keeps_dropFault : s.Keeps s.dropFault := by
  refine State.Keeps.trans ?_ (keeps_takeFault _)
  exact ⟨rfl, rfl, rfl, rfl, rfl⟩

theorem keeps_recorderFails : s.Keeps s.recorderFails := by
  refine State.Keeps.trans ?_ (keeps_dropFault _)
  exact ⟨rfl, rfl, rfl, rfl, rfl⟩

/-! ## The Lane Service -/

theorem keeps_endPollOf (l : Lane) : s.Keeps (s.endPollOf l) := by
  unfold State.endPollOf
  split
  · exact keeps_ite (keeps_setPhase s _) (.refl s)
  · exact .refl s

theorem keeps_beginDraining (l : Lane) (target : DrainTarget) : s.Keeps (s.beginDraining l target) :=
  ⟨rfl, rfl, rfl, rfl, rfl⟩

theorem keeps_haltLane (l : Lane) (c : FaultCode) (a : Word) (n : Half) : s.Keeps (s.haltLane l c a n) := by
  have h : s.Keeps ((s.askFault .laneService (haltRequest l c a n)).askFlag .lane) :=
    (keeps_askFault s _ _).trans (keeps_askFlag _ _)
  unfold State.haltLane
  split
  · exact ((h.trans (keeps_setLane _ l _)).trans (keeps_beginDraining _ l _)).trans (keeps_endPollOf _ l)
  · exact h.trans (keeps_setLane _ l _)
  all_goals exact .refl s

theorem keeps_followLink (l : Lane) (link : Word) : s.Keeps (s.followLink l link) := by
  unfold State.followLink
  exact keeps_ite (keeps_setPhase s _) (keeps_ite (keeps_setPhase s _) (keeps_haltLane s _ _ _ _))

theorem keeps_poll (l : Lane) (headLink : Word) : s.Keeps (s.poll l headLink) := by
  unfold State.poll
  exact keeps_ite (keeps_ite (keeps_setPhase s _)
    (keeps_ite (keeps_followLink s _ _) (keeps_ite (keeps_setPhase s _) (keeps_setPhase s _)))) (.refl s)

theorem keeps_notifyIf (asked : Bool) : s.Keeps (s.notifyIf asked) := by
  unfold State.notifyIf
  exact keeps_ite (keeps_askFlag s _) (.refl s)

theorem keeps_nextSetup (l : Lane) : s.Keeps (s.nextSetup l) := by
  unfold State.nextSetup
  split <;> exact ⟨rfl, rfl, rfl, rfl, rfl⟩

theorem keeps_perform (t : LaneTask) : s.Keeps (s.perform t) := by
  cases t
  case notifyEntry l => exact keeps_notifyIf s _
  case removeEntry l => exact keeps_setLane s _ _
  case notifyFlight l => exact keeps_notifyIf s _
  case outcomeHalt l a n => exact keeps_haltLane s _ _ _ _
  case clearFlight l => exact keeps_setLane s _ _
  case reportEligible l => exact keeps_ite ⟨rfl, rfl, rfl, rfl, rfl⟩ (.refl s)
  case reportTaken => exact keeps_entryLeaves s
  case startPoll l h => exact keeps_poll s _ _
  case continuePoll l => exact keeps_poll s _ _
  case nextSetup l => exact keeps_nextSetup s _
  all_goals exact .refl s

theorem keeps_stopAll : s.Keeps s.stopAll := ⟨rfl, rfl, rfl, rfl, rfl⟩

theorem keeps_endJob (j : BoundaryJob) : s.Keeps (s.endJob j) := ⟨rfl, rfl, rfl, rfl, rfl⟩

theorem keeps_settle : s.Keeps s.settle := by
  unfold State.settle
  split
  · refine keeps_ite (keeps_ite (State.Keeps.trans (keeps_endJob s _) (keeps_stopAll _)) ?_) (.refl s)
    split
    · exact ⟨rfl, rfl, rfl, rfl, rfl⟩
    · exact keeps_endJob s _
  · exact .refl s

/-- Working through the agenda writes no memory: each write waits for its bus transfer to end. -/
theorem keeps_work (ts : List LaneTask) : s.Keeps (State.work ts s) := by
  induction ts generalizing s with
  | nil => exact (keeps_setAgenda s []).trans (keeps_settle _)
  | cons t rest ih =>
    unfold State.work
    refine keeps_ite (keeps_setAgenda s _) (keeps_ite ((keeps_perform s t).trans (ih _)) ?_)
    exact (keeps_perform s t).trans (keeps_setAgenda _ _)

theorem keeps_actOnRequest (l : Lane) (r : LaneRecord) : s.Keeps (s.actOnRequest l r).1 := by
  unfold State.actOnRequest
  dsimp only
  split <;> exact ⟨rfl, rfl, rfl, rfl, rfl⟩

theorem keeps_takeTicket (l : Lane) (ticket : Byte) : s.Keeps (s.takeTicket l ticket) := ⟨rfl, rfl, rfl, rfl, rfl⟩

theorem keeps_requestStep (l : Lane) (r : LaneRecord) : s.Keeps (s.requestStep l r) := by
  unfold State.requestStep
  exact keeps_ite (keeps_work s _)
    (((keeps_takeTicket s l r.ticket).trans (keeps_actOnRequest _ l r)).trans (keeps_work _ _))

theorem keeps_fetch (j : BoundaryJob) (h : HeaderCopy) (frame : Word) : s.Keeps (s.fetch j h frame) :=
  ⟨rfl, rfl, rfl, rfl, rfl⟩

/-! ## The Mode Controller and the Register Port -/

theorem keeps_returnToActive : s.Keeps s.returnToActive := ⟨rfl, rfl, rfl, rfl, rfl⟩
theorem keeps_enterStopping : s.Keeps s.enterStopping := ⟨rfl, rfl, rfl, rfl, rfl⟩
theorem keeps_enterFaulted : s.Keeps s.enterFaulted := ⟨rfl, rfl, rfl, rfl, rfl⟩
theorem keeps_rampUp : s.Keeps s.rampUp := ⟨rfl, rfl, rfl, rfl, rfl⟩
theorem keeps_rampDown : s.Keeps s.rampDown := ⟨rfl, rfl, rfl, rfl, rfl⟩
theorem keeps_acceptPlan (p : Plan) : s.Keeps (s.acceptPlan p) := ⟨rfl, rfl, rfl, rfl, rfl⟩

theorem keeps_takeCommand (c : PartCommand) : s.Keeps (s.takeCommand c) := by
  cases c
  · show s.Keeps s.takeStart
    unfold State.takeStart
    exact keeps_ite (keeps_giveResult s _) (keeps_ite (keeps_giveResult s _)
      (keeps_ite (keeps_giveResult s _) (keeps_setMode s _)))
  · show s.Keeps s.takeStop
    unfold State.takeStop
    split <;> exact ⟨rfl, rfl, rfl, rfl, rfl⟩
  · show s.Keeps s.takeSleep
    unfold State.takeSleep
    split <;> exact ⟨rfl, rfl, rfl, rfl, rfl⟩
  · show s.Keeps s.takeWake
    unfold State.takeWake
    split <;> exact ⟨rfl, rfl, rfl, rfl, rfl⟩

theorem keeps_takeHanded (c : PartCommand) : s.Keeps (s.takeHanded c) := by
  unfold State.takeHanded
  exact keeps_ite (keeps_takeCommand s c) (.refl s)

theorem keeps_commandArrives (c : PartCommand) : s.Keeps (s.commandArrives c) := by
  unfold State.commandArrives
  split
  · refine State.Keeps.trans ?_ (keeps_takeHanded _ c)
    exact ⟨rfl, rfl, rfl, rfl, rfl⟩
  all_goals exact ⟨rfl, rfl, rfl, rfl, rfl⟩

theorem keeps_command (c : PartCommand) (src : CmdSource) : s.Keeps (s.command c src) := by
  cases src with
  | write e => exact keeps_ite (.refl s) ((keeps_setEnables s e).trans (keeps_commandArrives _ c))
  | handedOver => exact keeps_takeHanded s c

theorem keeps_tryHold : s.Keeps s.tryHold := by
  unfold State.tryHold
  exact keeps_ite ⟨rfl, rfl, rfl, rfl, rfl⟩ (.refl s)

theorem keeps_faultReport : s.Keeps s.faultReport := by
  unfold State.faultReport
  split
  · exact keeps_enterFaulted s
  · exact ⟨rfl, rfl, rfl, rfl, rfl⟩
  · exact keeps_ite (keeps_ite (keeps_enterStopping s) (keeps_enterFaulted s)) (keeps_setMode s _)
  all_goals exact keeps_setMode s _

/-! ## Resets -/

theorem completeBegun_pending (b : Begun) : (s.completeBegun b).pending = s.pending := by
  unfold State.completeBegun
  split
  · rfl
  · split <;> rfl

theorem completeBegun_none : s.completeBegun none = s := rfl

end Sys2Proof.Machine
end

