-- ==== Sys2Proof/Laws/Lanes.lean ====
section
/-! SUPPORT. What the Lane Service's shared operations do: one step of the agenda, the endings after a mark, a fault halt,
the end of the boundary's work; and the marks the Map Unit knows. -/

namespace Sys2Proof.Machine

variable (s : State)

/-! ## One lane's share -/

theorem PerLane.set_set {α : Type} (p : PerLane α) (l : Lane) (u v : α) : (p.set l u).set l v = p.set l v := by
  match l with
  | 0 => rfl
  | 1 => rfl
  | 2 => rfl
  | 3 => rfl

@[simp] theorem State.setLane_setLane (l : Lane) (u v : LaneUnit) : (s.setLane l u).setLane l v = s.setLane l v := by
  simp only [State.setLane, PerLane.set_set]

/-! ## The agenda -/

/-- The agenda stops at a bus write. -/
theorem work_write {t : LaneTask} (rest : List LaneTask) (h : t.isWrite = true) :
    State.work (t :: rest) s = s.setAgenda (t :: rest) := by
  simp only [State.work, h, if_true]

/-- A step that leaves nothing more to do is carried out, and the agenda goes on. -/
theorem work_perform {t : LaneTask} (rest : List LaneTask) (h : t.isWrite = false) (hf : s.follows t = []) :
    State.work (t :: rest) s = State.work rest (s.perform t) := by
  simp [State.work, h, hf]

/-- A step that leaves writes to do is carried out, and the agenda stops at them. -/
theorem work_follows {t : LaneTask} (rest : List LaneTask) (h : t.isWrite = false) (hf : s.follows t ≠ []) :
    State.work (t :: rest) s = (s.perform t).setAgenda (s.follows t ++ rest) := by
  have : (s.follows t).isEmpty = false := by cases h' : s.follows t <;> simp_all
  simp [State.work, h, this]

/-! ## The endings after a mark -/

/-- With no ordinary entry left, a lane ends its entries when it has some and the flight note is clear. -/
theorem LaneUnit.ready_marked (u : LaneUnit) (h : ∀ e ∈ u.intake, e.mark ≠ .ordinary) :
    u.ready = decide (u.flight = none ∧ u.intake ≠ []) := by
  unfold LaneUnit.ready
  rcases u with ⟨_, _, _, _, _, intake, flight, _, _, _, _, _, _, _⟩
  cases flight <;> rcases intake with _ | ⟨⟨_, _, m⟩, es⟩ <;> simp
  exact h _ List.mem_cons_self

theorem markOrdinary_marked (m : EntryMark) (hm : m ≠ .ordinary) (es : List IntakeEntry) :
    ∀ e ∈ markOrdinary m es, e.mark ≠ .ordinary := by
  intro e he
  obtain ⟨e', _, rfl⟩ := List.mem_map.1 he
  split
  · simpa
  · assumption

/-- The endings of a lane whose ordinary entries have just been marked. -/
theorem endTasks_marked (l : Lane) (u : LaneUnit) (m : EntryMark) (hm : m ≠ .ordinary)
    (hf : (s.lane l).flight = u.flight) (hi : (s.lane l).intake = markOrdinary m u.intake) :
    s.endTasks l =
      if u.flight = none ∧ u.intake ≠ [] then
        [.writeEntryOutcome l, .writeEntryReleased l, .notifyEntry l, .removeEntry l, .endEntries l]
      else [] := by
  unfold State.endTasks
  rw [LaneUnit.ready_marked _ (hi ▸ markOrdinary_marked m hm u.intake), hf, hi]
  have : markOrdinary m u.intake ≠ [] ↔ u.intake ≠ [] := by simp [markOrdinary]
  simp only [this, decide_eq_true_eq]

/-! ## A fault halt -/

/-- 05 R110: what a fault halt does to a RUNNING lane. -/
theorem haltLane_running (l : Lane) (c : FaultCode) (a : Word) (n : Half) (h : (s.lane l).state = .running) :
    s.haltLane l c a n =
      { s with
        lanes := { s.lanes with
          lanes := s.lanes.lanes.set l
            { s.lane l with
              haltReason := c.haltReason
              intake := markOrdinary .dropped (s.lane l).intake
              abortsOutstanding := (s.lane l).abortsOutstanding + 1
              drainTarget := .halted
              state := .draining }
          job := s.lanes.job.map fun j => if j.lane = l ∧ j.phase ≠ .recordRead then { j with phase := .ended } else j }
        mail := { s.mail with
          faultRequests := s.mail.faultRequests ++ [(.laneService, haltRequest l c a n)]
          flagRequests := s.mail.flagRequests ++ [.lane]
          abortLanes := s.mail.abortLanes ++ [l] } } := by
  unfold State.haltLane
  rw [h]
  dsimp only
  unfold State.beginDraining
  simp only [State.setLane_setLane, State.lane_setLane_same]
  unfold State.endPollOf State.setPhase
  dsimp only [State.setLane, State.askFlag, State.askFault, State.lane]
  rcases hj : s.lanes.job with _ | j
  · rfl
  · dsimp only [Option.map_some]
    split <;> rfl

/-- 05 R110 steps 4 and 5: what a fault halt of a RUNNING lane leaves to do. -/
theorem haltTasks_running (l : Lane) (c : FaultCode) (a : Word) (n : Half) (h : (s.lane l).state = .running) :
    s.haltTasks false l c a n =
      (if (s.lane l).flight = none ∧ (s.lane l).intake ≠ [] then
        [.writeEntryOutcome l, .writeEntryReleased l, .notifyEntry l, .removeEntry l, .endEntries l]
      else []) ++ [.writeState l] := by
  have hl := congrArg (State.lane · l) (haltLane_running s l c a n h)
  have hl' := hl.trans (PerLane.get_set_same _ l _)
  have hf : ((s.haltLane l c a n).lane l).flight = (s.lane l).flight := (congrArg LaneUnit.flight hl').trans rfl
  have hi : ((s.haltLane l c a n).lane l).intake = markOrdinary .dropped (s.lane l).intake :=
    (congrArg LaneUnit.intake hl').trans rfl
  unfold State.haltTasks
  rw [if_pos h, if_neg (by decide), endTasks_marked (s.haltLane l c a n) l (s.lane l) .dropped (by decide) hf hi]

/-! ## The end of the boundary's work -/

/-- 05 R112: the poll report goes out and every lane's ordinary entries are marked STOPPED. -/
theorem endJob_stopAll (j : BoundaryJob) : (s.endJob j).stopAll = s.stoppedAfter j := by
  have h : ∀ t : State, (∀ l, t.lane l = (s.lane l).stop) → allLanes.flatMap t.endTasks =
      [0, 1, 2, 3].flatMap fun l : Lane =>
        if (s.lane l).flight = none ∧ (s.lane l).intake ≠ [] then
          [.writeEntryOutcome l, .writeEntryReleased l, .notifyEntry l, .removeEntry l, .endEntries l]
        else [] := by
    intro t ht
    refine congrArg (List.flatMap · allLanes) (funext fun l => ?_)
    exact endTasks_marked t l (s.lane l) .stopped (by decide) (by rw [ht]; rfl) (by rw [ht]; rfl)
  unfold State.stopAll State.setAgenda
  dsimp only
  have e := h { s.endJob j with lanes := { (s.endJob j).lanes with lanes := .ofFn fun l => ((s.endJob j).lane l).stop } }
    fun l => PerLane.get_ofFn (fun l => ((s.endJob j).lane l).stop) l
  exact congrArg
    (fun ts : List LaneTask =>
      ({ s.endJob j with lanes := { (s.endJob j).lanes with
          lanes := .ofFn fun l => ((s.endJob j).lane l).stop, agenda := ts } } : State)) e

theorem work_nil_working (h : ∀ j, s.lanes.job = some j → j.phase ≠ .ended) : State.work [] s = s.setAgenda [] := by
  simp only [State.work, State.settle, State.setAgenda]
  cases hj : s.lanes.job with
  | none => rfl
  | some j => dsimp only; rw [if_neg (h j hj)]

theorem work_nil_stopped {j : BoundaryJob} (hj : s.lanes.job = some j) (hp : j.phase = .ended)
    (hn : j.stopNoted = true) : State.work [] s = s.stoppedAfter j := by
  simp only [State.work, State.settle, State.setAgenda, hj, hp, hn, if_true]
  rw [endJob_stopAll]
  rfl

theorem work_nil_next {j : BoundaryJob} (hj : s.lanes.job = some j) (hp : j.phase = .ended) (hn : j.stopNoted = false)
    {l : Lane} (hl : nextLane j.lane = some l) :
    State.work [] s =
      { s with lanes := { s.lanes with agenda := [], job := some { j with lane := l, phase := .recordRead } } } := by
  simp [State.work, State.settle, State.setAgenda, hj, hp, hn, hl]

theorem work_nil_last {j : BoundaryJob} (hj : s.lanes.job = some j) (hp : j.phase = .ended) (hn : j.stopNoted = false)
    (hl : nextLane j.lane = none) : State.work [] s = (s.setAgenda []).endJob j := by
  simp [State.work, State.settle, State.setAgenda, hj, hp, hn, hl]

/-! ## The marks the Map Unit knows -/

theorem getD_foldl_set_false (ns : List Nat) (ms : List Bool) (l : Nat) :
    (ns.foldl (fun ms line => ms.set line false) ms).getD l false = (ms.getD l false && !ns.contains l) := by
  induction ns generalizing ms with
  | nil => simp
  | cons n ns ih =>
    rw [List.foldl_cons, ih]
    by_cases h : l = n
    · subst h
      simp [List.getD_eq_getElem?_getD, List.getElem?_set]
      split <;> simp
    · simp [List.getD_eq_getElem?_getD, Ne.symm h, h]

/-- 01 R19: a mark is known from its notice on. -/
theorem knownMarks_getD (line : Nat) : s.knownMarks.getD line false = s.markKnown line :=
  getD_foldl_set_false _ _ _

end Sys2Proof.Machine
end

