-- ==== Sys2Proof/Laws/Map.lean ====
section
/-! SUPPORT. The Map Unit's operations keep it consistent: what each primitive does to the counts, the map entries, the
free pool and the damaged list, and from that what each claim does. -/

namespace Sys2Proof.Machine.MapUnit

/-- One for a line, nothing for the others. -/
def tick (line n : Nat) : Int := if n = line then 1 else 0

/-- What an entry adds to the number of entries naming a line. -/
def naming (o : Option StagedEntry) (n : Nat) : Int :=
  match o with
  | some e => tick e.line n
  | none => 0

/-- A state of the Map Unit within a claim: the counts are off by `lx` and `sx` against the map entries, and the line
`out`, if there is one, is at present in no place. -/
structure Within (m : MapUnit) (lx sx : Nat → Int) (out : Option Nat) : Prop where
  liveLength   : m.live.length = Config.rows
  stageLength  : m.staging.length = Config.rows
  liveCounts   : m.liveCount.length = Config.storeLines
  stageCounts  : m.stageCount.length = Config.storeLines
  liveNames    : ∀ n ∈ m.live, n < Config.storeLines
  stageNames   : ∀ e, some e ∈ m.staging → e.line < Config.storeLines
  liveCounted  : ∀ n, n < Config.storeLines → (m.liveOf n : Int) = m.live.count n + lx n
  stageCounted : ∀ n, n < Config.storeLines → (m.stageOf n : Int) = m.stagedNaming n + sx n
  standsOnce   : (m.pool ++ m.damaged).Nodup
  standsWhere  : ∀ n, n ∈ m.pool ++ m.damaged ↔
    n < Config.storeLines ∧ m.liveOf n = 0 ∧ m.stageOf n = 0 ∧ out ≠ some n

theorem Consistent.within {m : MapUnit} (h : m.Consistent) : m.Within (fun _ => 0) (fun _ => 0) none :=
  { h with
    liveCounted := fun n hn => by simp [h.liveCounted n hn]
    stageCounted := fun n hn => by simp [h.stageCounted n hn]
    standsWhere := fun n => by simp [h.standsWhere n] }

theorem Within.consistent {m : MapUnit} (h : m.Within (fun _ => 0) (fun _ => 0) none) : m.Consistent :=
  { h with
    liveCounted := fun n hn => by have := h.liveCounted n hn; simpa using this
    stageCounted := fun n hn => by have := h.stageCounted n hn; simpa using this
    standsWhere := fun n => by simp [h.standsWhere n] }

theorem Within.congr {m : MapUnit} {lx sx lx' sx' : Nat → Int} {out : Option Nat} (h : m.Within lx sx out)
    (hl : ∀ n, lx n = lx' n) (hs : ∀ n, sx n = sx' n) : m.Within lx' sx' out :=
  { h with
    liveCounted := fun n hn => by rw [h.liveCounted n hn, hl]
    stageCounted := fun n hn => by rw [h.stageCounted n hn, hs] }

/-! ## Lists -/

theorem getD_set {α : Type} (l : List α) (i j : Nat) (v d : α) (hi : i < l.length) :
    (l.set i v).getD j d = if j = i then v else l.getD j d := by
  rw [List.getD_eq_getElem?_getD, List.getElem?_set, List.getD_eq_getElem?_getD]
  by_cases h : i = j
  · subst h; simp [hi]
  · have h' : ¬ j = i := fun e => h e.symm
    simp [h, h']

theorem countP_set_int {α : Type} (p : α → Bool) (l : List α) (i : Nat) (a : α) (hi : i < l.length) :
    ((l.set i a).countP p : Int) = l.countP p - (if p l[i] then 1 else 0) + (if p a then 1 else 0) := by
  rw [List.countP_set hi]
  have : (if p l[i] then 1 else 0) ≤ l.countP p := by
    split
    · rename_i h
      exact List.countP_pos_iff.2 ⟨l[i], List.getElem_mem hi, h⟩
    · exact Nat.zero_le _
  push_cast [Nat.cast_sub this]
  ring

theorem count_set_int (l : List Nat) (i a n : Nat) (hi : i < l.length) :
    ((l.set i a).count n : Int) = l.count n - tick l[i] n + tick a n := by
  have := countP_set_int (fun x => x == n) l i a hi
  simp only [List.count] at this ⊢
  rw [this]
  simp only [tick, beq_iff_eq, eq_comm (a := n)]

theorem if_names (n : Nat) (o : Option StagedEntry) : (if namesLine n o = true then (1 : Int) else 0) = naming o n := by
  cases o with
  | none => rfl
  | some e => simp only [namesLine, naming, tick, beq_iff_eq, eq_comm (a := n)]

theorem staged_eq (m : MapUnit) (row : Nat) (h : row < m.staging.length) : m.staged row = m.staging[row] := by
  rw [MapUnit.staged, List.getD_eq_getElem _ _ h]

/-! ## The primitives -/

/-- Raising a stage count puts the line, if it stood nowhere, among the referenced. -/
theorem Within.raiseStage {m : MapUnit} {lx sx : Nat → Int} {out : Option Nat} (h : m.Within lx sx out) {line : Nat}
    (hl : line < Config.storeLines)
    (hr : out = some line ∨ out = none ∧ (m.liveOf line ≠ 0 ∨ m.stageOf line ≠ 0)) :
    (m.raiseStage line).Within lx (fun n => sx n + tick line n) none := by
  have hg : ∀ n, (m.raiseStage line).stageOf n = if n = line then m.stageOf line + 1 else m.stageOf n := fun n =>
    getD_set _ _ _ _ _ (by rw [h.stageCounts]; exact hl)
  refine { h with
    stageCounts := by simpa [MapUnit.raiseStage] using h.stageCounts
    stageCounted := fun n hn => ?_
    standsWhere := fun n => ?_ }
  · have := h.stageCounted n hn
    rw [hg]
    show _ = (m.stagedNaming n : Int) + (sx n + tick line n)
    unfold tick
    split
    · rename_i e; subst e; push_cast; linarith
    · linarith
  · show n ∈ m.pool ++ m.damaged ↔ n < _ ∧ m.liveOf n = 0 ∧ (m.raiseStage line).stageOf n = 0 ∧ _
    rw [h.standsWhere n, hg]
    by_cases e : n = line
    · subst e
      rcases hr with hr | ⟨hr, hr'⟩
      · simp [hr]
      · rcases hr' with h1 | h1 <;> simp [h1]
    · have : out ≠ some n := by
        rcases hr with hr | ⟨hr, _⟩
        · rw [hr]; simpa using fun h => e h.symm
        · simp [hr]
      simp [e, this]

/-- Raising a live count likewise. -/
theorem Within.raiseLive {m : MapUnit} {lx sx : Nat → Int} {out : Option Nat} (h : m.Within lx sx out) {line : Nat}
    (hl : line < Config.storeLines)
    (hr : out = some line ∨ out = none ∧ (m.liveOf line ≠ 0 ∨ m.stageOf line ≠ 0)) :
    (m.raiseLive line).Within (fun n => lx n + tick line n) sx none := by
  have hg : ∀ n, (m.raiseLive line).liveOf n = if n = line then m.liveOf line + 1 else m.liveOf n := fun n =>
    getD_set _ _ _ _ _ (by rw [h.liveCounts]; exact hl)
  refine { h with
    liveCounts := by simpa [MapUnit.raiseLive] using h.liveCounts
    liveCounted := fun n hn => ?_
    standsWhere := fun n => ?_ }
  · have := h.liveCounted n hn
    rw [hg]
    show _ = (m.live.count n : Int) + (lx n + tick line n)
    unfold tick
    split
    · rename_i e; subst e; push_cast; linarith
    · linarith
  · show n ∈ m.pool ++ m.damaged ↔ n < _ ∧ (m.raiseLive line).liveOf n = 0 ∧ m.stageOf n = 0 ∧ _
    rw [h.standsWhere n, hg]
    by_cases e : n = line
    · subst e
      rcases hr with hr | ⟨hr, hr'⟩
      · simp [hr]
      · rcases hr' with h1 | h1 <;> simp [h1]
    · have : out ≠ some n := by
        rcases hr with hr | ⟨hr, _⟩
        · rw [hr]; simpa using fun h => e h.symm
        · simp [hr]
      simp [e, this]

/-- Lowering a stage count leaves the line standing nowhere until the return test. -/
theorem Within.lowerStage {m : MapUnit} {lx sx : Nat → Int} (h : m.Within lx sx none) {line : Nat}
    (hl : line < Config.storeLines) (hp : 0 < sx line) :
    (m.lowerStage line).Within lx (fun n => sx n - tick line n) (some line) := by
  have hg : ∀ n, (m.lowerStage line).stageOf n = if n = line then m.stageOf line - 1 else m.stageOf n := fun n =>
    getD_set _ _ _ _ _ (by rw [h.stageCounts]; exact hl)
  have hpos : 0 < m.stageOf line := by have := h.stageCounted line hl; omega
  refine { h with
    stageCounts := by simpa [MapUnit.lowerStage] using h.stageCounts
    stageCounted := fun n hn => ?_
    standsWhere := fun n => ?_ }
  · have := h.stageCounted n hn
    rw [hg]
    show _ = (m.stagedNaming n : Int) + (sx n - tick line n)
    unfold tick
    split
    · rename_i e; subst e; omega
    · omega
  · show n ∈ m.pool ++ m.damaged ↔ n < _ ∧ m.liveOf n = 0 ∧ (m.lowerStage line).stageOf n = 0 ∧ _
    rw [h.standsWhere n, hg]
    by_cases e : n = line
    · subst e; simp; omega
    · have e' : ¬ line = n := fun h => e h.symm
      simp [e, e']

/-- Lowering a live count likewise. -/
theorem Within.lowerLive {m : MapUnit} {lx sx : Nat → Int} (h : m.Within lx sx none) {line : Nat}
    (hl : line < Config.storeLines) (hp : 0 < lx line) :
    (m.lowerLive line).Within (fun n => lx n - tick line n) sx (some line) := by
  have hg : ∀ n, (m.lowerLive line).liveOf n = if n = line then m.liveOf line - 1 else m.liveOf n := fun n =>
    getD_set _ _ _ _ _ (by rw [h.liveCounts]; exact hl)
  have hpos : 0 < m.liveOf line := by have := h.liveCounted line hl; omega
  refine { h with
    liveCounts := by simpa [MapUnit.lowerLive] using h.liveCounts
    liveCounted := fun n hn => ?_
    standsWhere := fun n => ?_ }
  · have := h.liveCounted n hn
    rw [hg]
    show _ = (m.live.count n : Int) + (lx n - tick line n)
    unfold tick
    split
    · rename_i e; subst e; omega
    · omega
  · show n ∈ m.pool ++ m.damaged ↔ n < _ ∧ (m.lowerLive line).liveOf n = 0 ∧ m.stageOf n = 0 ∧ _
    rw [h.standsWhere n, hg]
    by_cases e : n = line
    · subst e; simp; omega
    · have e' : ¬ line = n := fun h => e h.symm
      simp [e, e']

theorem returnTest_liveOf (marks : List Bool) (m : MapUnit) (line n : Nat) :
    (returnTest marks m line).liveOf n = m.liveOf n := by
  unfold returnTest; split
  · split <;> rfl
  · rfl

theorem returnTest_stageOf (marks : List Bool) (m : MapUnit) (line n : Nat) :
    (returnTest marks m line).stageOf n = m.stageOf n := by
  unfold returnTest; split
  · split <;> rfl
  · rfl

theorem returnTest_staging (marks : List Bool) (m : MapUnit) (line : Nat) :
    (returnTest marks m line).staging = m.staging := by
  unfold returnTest; split
  · split <;> rfl
  · rfl

theorem returnTest_live (marks : List Bool) (m : MapUnit) (line : Nat) : (returnTest marks m line).live = m.live := by
  unfold returnTest; split
  · split <;> rfl
  · rfl

/-- The return test (01 R8) finds the place of a line that stood nowhere. -/
theorem Within.returnTest {m : MapUnit} {lx sx : Nat → Int} (marks : List Bool) {line : Nat}
    (h : m.Within lx sx (some line)) (hl : line < Config.storeLines) :
    (MapUnit.returnTest marks m line).Within lx sx none := by
  have hout : line ∉ m.pool ++ m.damaged := by rw [h.standsWhere]; simp
  unfold MapUnit.returnTest MapUnit.unreferenced
  split
  · rename_i hu
    simp only [Bool.and_eq_true, beq_iff_eq] at hu
    have key : ∀ n, n < Config.storeLines ∧ m.liveOf n = 0 ∧ m.stageOf n = 0 ∧ none ≠ some n ↔
        n ∈ m.pool ++ m.damaged ∨ n = line := by
      intro n
      rw [h.standsWhere]
      by_cases e : n = line
      · subst e; simp [hl, hu]
      · have e' : ¬ line = n := fun h => e h.symm
        simp [e, e']
    split
    · refine { h with standsOnce := ?_, standsWhere := fun n => ?_ }
      · show (m.pool ++ (m.damaged ++ [line])).Nodup
        rw [← List.append_assoc]
        exact List.nodup_append.2 ⟨h.standsOnce, by simp, by
          intro a ha b hb; simp at hb; subst hb; intro e; subst e; exact hout ha⟩
      · show n ∈ m.pool ++ (m.damaged ++ [line]) ↔ _
        refine Iff.trans ?_ (key n).symm
        simp [or_assoc]
    · refine { h with standsOnce := ?_, standsWhere := fun n => ?_ }
      · show ((m.pool ++ [line]) ++ m.damaged).Nodup
        have := h.standsOnce
        rw [List.nodup_append] at this ⊢
        simp only [List.mem_append, not_or] at hout
        refine ⟨List.nodup_append.2 ⟨this.1, by simp, ?_⟩, this.2.1, ?_⟩
        · intro a ha b hb; simp at hb; subst hb; intro e; subst e; exact hout.1 ha
        · intro a ha b hb
          simp only [List.mem_append, List.mem_singleton] at ha
          rcases ha with ha | ha
          · exact this.2.2 a ha b hb
          · subst ha; intro e; subst e; exact hout.2 hb
      · show n ∈ (m.pool ++ [line]) ++ m.damaged ↔ _
        refine Iff.trans ?_ (key n).symm
        simp only [List.mem_append, List.mem_singleton]
        tauto
  · rename_i hu
    simp only [Bool.and_eq_true, beq_iff_eq] at hu
    refine { h with standsWhere := fun n => ?_ }
    rw [h.standsWhere]
    by_cases e : n = line
    · subst e; simp; tauto
    · have e' : ¬ line = n := fun h => e h.symm
      simp [e']

/-- Replacing a staging entry moves what the entries name. -/
theorem Within.putStaged {m : MapUnit} {lx sx : Nat → Int} {out : Option Nat} (h : m.Within lx sx out) {row : Nat}
    (hr : row < Config.rows) (o : Option StagedEntry) (ho : ∀ e, o = some e → e.line < Config.storeLines) :
    (m.putStaged row o).Within lx (fun n => sx n + naming (m.staged row) n - naming o n) out := by
  have hlen : row < m.staging.length := by rw [h.stageLength]; exact hr
  refine { h with
    stageLength := (List.length_set ..).trans h.stageLength
    stageNames := fun e he => ?_
    stageCounted := fun n hn => ?_
    standsWhere := fun n => h.standsWhere n }
  · rcases List.mem_or_eq_of_mem_set he with he | he
    · exact h.stageNames e he
    · exact ho e he.symm
  · have h1 := h.stageCounted n hn
    show (m.stageOf n : Int) = ((m.putStaged row o).stagedNaming n : Int) + _
    have h2 : ((m.putStaged row o).stagedNaming n : Int) =
        m.stagedNaming n - naming (m.staged row) n + naming o n := by
      have := countP_set_int (namesLine n) m.staging row o hlen
      rw [MapUnit.stagedNaming, MapUnit.stagedNaming, staged_eq m row hlen,
        show (m.putStaged row o).staging = m.staging.set row o from rfl, this, if_names, if_names]
    rw [h2, h1]; ring

/-- The primitives that do not touch a field. -/
theorem staged_putStaged {m : MapUnit} (row : Nat) (o : Option StagedEntry) (h : row < m.staging.length) (r : Nat) :
    (m.putStaged row o).staged r = if r = row then o else m.staged r := getD_set _ _ _ _ _ h

/-! ## Views -/

theorem Consistent.staged_referenced {m : MapUnit} (h : m.Consistent) {row : Nat} {e : StagedEntry}
    (he : m.staged row = some e) : e.line < Config.storeLines ∧ m.stageOf e.line ≠ 0 := by
  have hlen : row < m.staging.length := by
    by_contra hc
    rw [MapUnit.staged, List.getD_eq_default _ _ (by omega)] at he
    exact absurd he (by simp)
  rw [staged_eq m row hlen] at he
  have hmem : some e ∈ m.staging := he ▸ List.getElem_mem hlen
  have hl := h.stageNames e hmem
  refine ⟨hl, ?_⟩
  rw [h.stageCounted _ hl]
  exact Nat.pos_iff_ne_zero.1 (List.countP_pos_iff.2 ⟨some e, hmem, by simp [namesLine]⟩)

theorem Consistent.live_referenced {m : MapUnit} (h : m.Consistent) {row : Nat} (hr : row < Config.rows) :
    m.liveLine row < Config.storeLines ∧ m.liveOf (m.liveLine row) ≠ 0 := by
  have hlen : row < m.live.length := by rw [h.liveLength]; exact hr
  have hmem : m.liveLine row ∈ m.live := by
    rw [MapUnit.liveLine, List.getD_eq_getElem _ _ hlen]; exact List.getElem_mem hlen
  have hl := h.liveNames _ hmem
  refine ⟨hl, ?_⟩
  rw [h.liveCounted _ hl]
  exact Nat.pos_iff_ne_zero.1 (List.count_pos_iff.2 hmem)

theorem ownLine_staged {m : MapUnit} {set : SetId} {row p : Nat} (h : m.ownLine set row = some p) :
    ∃ e, m.staged row = some e ∧ e.line = p ∧ e.owner = set := by
  unfold MapUnit.ownLine at h
  split at h
  · rename_i e he
    split at h
    · rename_i ho; exact ⟨e, he, by simpa using h, ho⟩
    · exact absurd h (by simp)
  · exact absurd h (by simp)

/-- The view of a row names a line that something references (01 R11). -/
theorem Consistent.view_referenced {m : MapUnit} (h : m.Consistent) (set : SetId) {row : Nat} (hr : row < Config.rows) :
    m.view set row < Config.storeLines ∧ (m.liveOf (m.view set row) ≠ 0 ∨ m.stageOf (m.view set row) ≠ 0) := by
  unfold MapUnit.view
  cases ho : m.ownLine set row with
  | none => exact ⟨(h.live_referenced hr).1, Or.inl (h.live_referenced hr).2⟩
  | some p =>
    obtain ⟨e, he, hp, _⟩ := ownLine_staged ho
    subst hp
    exact ⟨(h.staged_referenced he).1, Or.inr (h.staged_referenced he).2⟩

/-! ## The claims -/

/-- The stage step (01 R12), for a line that is referenced or has just been taken from the pool. -/
theorem Within.stageStep {m : MapUnit} {out : Option Nat} (h : m.Within (fun _ => 0) (fun _ => 0) out)
    (marks : List Bool) (set : SetId) {line row : Nat} (hl : line < Config.storeLines) (hr : row < Config.rows)
    (ho : out = some line ∧ m.stageOf line = 0 ∨ out = none ∧ (m.liveOf line ≠ 0 ∨ m.stageOf line ≠ 0)) :
    (MapUnit.stageStep marks set line m row).Consistent := by
  have hlen : row < m.staging.length := by rw [h.stageLength]; exact hr
  have hraise := (h.raiseStage hl (ho.imp And.left id)).putStaged hr (some ⟨line, set⟩) (by intro e he; cases he; exact hl)
  have hst : (m.raiseStage line).staged row = m.staged row := rfl
  unfold MapUnit.stageStep
  cases hs : m.staged row with
  | none =>
    refine (hraise.congr (fun _ => rfl) fun n => ?_).consistent
    simp [hst, hs, naming]
  | some e =>
    have hmem : some e ∈ m.staging := by
      rw [staged_eq m row hlen] at hs; exact hs ▸ List.getElem_mem hlen
    have he := h.stageNames e hmem
    dsimp only
    split
    · rename_i heq
      have hnone : out = none := by
        rcases ho with ho | ho
        · exfalso
          have hcount := h.stageCounted e.line he
          have hpos : 0 < m.stagedNaming e.line := List.countP_pos_iff.2 ⟨some e, hmem, by simp [namesLine]⟩
          rw [heq] at hcount hpos
          omega
        · exact ho.1
      subst hnone
      refine ((h.putStaged hr (some ⟨line, set⟩) (by intro e he; cases he; exact hl)).congr (fun _ => rfl)
        fun n => ?_).consistent
      simp [hs, naming, heq]
    · have h3 := (hraise.lowerStage (line := e.line) he (by simp [hst, hs, naming, tick]))
      refine ((h3.returnTest marks he).congr (fun _ => rfl) fun n => ?_).consistent
      simp [hst, hs, naming]

/-- The free pool's head is unreferenced; taken out, it stands nowhere. -/
theorem Consistent.popped {m : MapUnit} (h : m.Consistent) {n : Nat} {rest : List Nat} (hp : m.pool = n :: rest) :
    ({ m with pool := rest } : MapUnit).Within (fun _ => 0) (fun _ => 0) (some n) ∧ n < Config.storeLines ∧
      m.stageOf n = 0 := by
  have hn := (h.standsWhere n).1 (by rw [hp]; simp)
  have hnd := h.standsOnce
  rw [hp, List.cons_append, List.nodup_cons] at hnd
  refine ⟨{ h.within with standsOnce := hnd.2, standsWhere := fun k => ?_ }, hn.1, hn.2.2⟩
  show k ∈ rest ++ m.damaged ↔ k < Config.storeLines ∧ m.liveOf k = 0 ∧ m.stageOf k = 0 ∧ some n ≠ some k
  have hk := h.standsWhere k
  rw [hp, List.cons_append, List.mem_cons] at hk
  by_cases e : n = k
  · subst e; simp; simpa using hnd.1
  · have e' : ¬ k = n := fun h => e h.symm
    simp only [e', false_or] at hk
    simp [hk, e]

/-- WRITE_CLAIM keeps the Map Unit consistent (01 R13). -/
theorem Consistent.afterWrite {m : MapUnit} (h : m.Consistent) (marks : List Bool) (set : SetId) (row : Nat) :
    (MapUnit.afterWrite marks m set row).Consistent := by
  unfold MapUnit.afterWrite
  split
  · rename_i hr
    split
    · exact h
    · rename_i n rest _ hp
      have hr : row < Config.rows := by simpa [hasRow] using hr
      obtain ⟨h1, h2, h3⟩ := h.popped hp
      exact h1.stageStep marks set h2 hr (Or.inl ⟨rfl, h3⟩)
    · exact h
  · exact h

theorem stageStep_stageOf_pos {m : MapUnit} (h : m.Consistent) (marks : List Bool) (set : SetId) {line row : Nat}
    (hl : line < Config.storeLines) (hr : row < Config.rows) (ho : m.liveOf line ≠ 0 ∨ m.stageOf line ≠ 0) :
    (MapUnit.stageStep marks set line m row).stageOf line ≠ 0 := by
  have hc := h.within.stageStep marks set hl hr (Or.inr ⟨rfl, ho⟩)
  have hlen : row < m.staging.length := by rw [h.stageLength]; exact hr
  have hst : (MapUnit.stageStep marks set line m row).staged row = some ⟨line, set⟩ := by
    unfold MapUnit.stageStep
    cases hs : m.staged row with
    | none => exact (staged_putStaged (m := m.raiseStage line) row _ hlen row).trans (if_pos rfl)
    | some e =>
      dsimp only
      split
      · exact (staged_putStaged row _ hlen row).trans (if_pos rfl)
      · show ((returnTest marks _ e.line).staging).getD row none = _
        rw [returnTest_staging]
        exact (staged_putStaged (m := m.raiseStage line) row _ hlen row).trans (if_pos rfl)
  exact (hc.staged_referenced hst).2

theorem Consistent.foldl_stageStep {m : MapUnit} (h : m.Consistent) (marks : List Bool) (set : SetId) {line : Nat}
    (rows : List Nat) (hr : ∀ r ∈ rows, r < Config.rows) (hl : line < Config.storeLines)
    (ho : m.liveOf line ≠ 0 ∨ m.stageOf line ≠ 0) :
    (rows.foldl (MapUnit.stageStep marks set line) m).Consistent := by
  induction rows generalizing m with
  | nil => exact h
  | cons r rows ih =>
    rw [List.foldl_cons]
    have hr' := hr r (by simp)
    exact ih (h.within.stageStep marks set hl hr' (Or.inr ⟨rfl, ho⟩)) (fun r' h' => hr r' (by simp [h']))
      (Or.inr (stageStep_stageOf_pos h marks set hl hr' ho))

/-- ALIAS_CLAIM keeps the Map Unit consistent (01 R14). -/
theorem Consistent.afterAlias {m : MapUnit} (h : m.Consistent) (marks : List Bool) (set : SetId) (q : Nat)
    (rows : List Nat) : (MapUnit.afterAlias marks m set q rows).Consistent := by
  unfold MapUnit.afterAlias
  split
  · rename_i hq
    have hv := h.view_referenced set (row := q) (by simpa [hasRow] using hq)
    refine h.foldl_stageStep marks set _ (fun r hr => ?_) hv.1 hv.2
    have := (List.mem_filter.1 hr).2
    simpa [hasRow] using this
  · exact h

/-! ### SHIFT -/

/-- Whether a move of a shift changes the staged line of its row, and which line it then lowers. -/
def lowered (m : MapUnit) (mv : Nat × Nat) : Option Nat :=
  match m.staged mv.1 with
  | some e => if e.line = mv.2 then none else some e.line
  | none => none

/-- What one move's raise adds. -/
def raised (m : MapUnit) (mv : Nat × Nat) (n : Nat) : Int :=
  match m.staged mv.1 with
  | some e => if e.line = mv.2 then 0 else tick mv.2 n
  | none => tick mv.2 n

def loweredTick (m : MapUnit) (mv : Nat × Nat) (n : Nat) : Int :=
  match m.lowered mv with
  | some l => tick l n
  | none => 0

theorem loweredTick_nonneg (m : MapUnit) (mv : Nat × Nat) (n : Nat) : 0 ≤ m.loweredTick mv n := by
  unfold loweredTick tick
  split
  · split <;> decide
  · decide

theorem sum_loweredTick_nonneg (m : MapUnit) (moves : List (Nat × Nat)) (n : Nat) :
    0 ≤ (moves.map fun mv => m.loweredTick mv n).sum :=
  List.sum_nonneg (by intro x hx; obtain ⟨mv, _, rfl⟩ := List.mem_map.1 hx; exact loweredTick_nonneg m mv n)

theorem raised_balance (m : MapUnit) (mv : Nat × Nat) (set : SetId) (n : Nat) :
    m.raised mv n + naming (m.staged mv.1) n - naming (some ⟨mv.2, set⟩) n = m.loweredTick mv n := by
  unfold raised loweredTick lowered naming
  cases m.staged mv.1 with
  | none => simp
  | some e =>
    by_cases h : e.line = mv.2
    · simp [h]
    · simp [h]

theorem foldl_shiftRaise_staging (moves : List (Nat × Nat)) (m : MapUnit) :
    (moves.foldl shiftRaise m).staging = m.staging := by
  induction moves generalizing m with
  | nil => rfl
  | cons mv moves ih =>
    rw [List.foldl_cons, ih]
    unfold shiftRaise
    split
    · split <;> rfl
    · rfl

/-- Step 1 of the shift claim. -/
theorem Within.foldl_shiftRaise (moves : List (Nat × Nat)) {m m' : MapUnit} {sx : Nat → Int}
    (h : m'.Within (fun _ => 0) sx none) (hs : m'.staging = m.staging)
    (hm : ∀ mv ∈ moves, mv.2 < Config.storeLines ∧ (m'.liveOf mv.2 ≠ 0 ∨ m'.stageOf mv.2 ≠ 0)) :
    (moves.foldl MapUnit.shiftRaise m').Within (fun _ => 0)
      (fun n => sx n + (moves.map fun mv => m.raised mv n).sum) none := by
  induction moves generalizing m' sx with
  | nil => exact h.congr (fun _ => rfl) (fun n => by simp)
  | cons mv moves ih =>
    rw [List.foldl_cons]
    have hst : m'.staged mv.1 = m.staged mv.1 := by unfold MapUnit.staged; rw [hs]
    obtain ⟨hl, href⟩ := hm mv (by simp)
    have hraise := h.raiseStage hl (Or.inr ⟨rfl, href⟩)
    have hrest : ∀ mv' ∈ moves, mv'.2 < Config.storeLines ∧ (m'.liveOf mv'.2 ≠ 0 ∨ m'.stageOf mv'.2 ≠ 0) :=
      fun mv' hmv' => hm mv' (by simp [hmv'])
    have hrest' : ∀ mv' ∈ moves, mv'.2 < Config.storeLines ∧
        ((m'.raiseStage mv.2).liveOf mv'.2 ≠ 0 ∨ (m'.raiseStage mv.2).stageOf mv'.2 ≠ 0) := by
      intro mv' hmv'
      refine ⟨(hrest mv' hmv').1, (hrest mv' hmv').2.imp id fun h0 => ?_⟩
      have hg : (m'.raiseStage mv.2).stageOf mv'.2 = if mv'.2 = mv.2 then m'.stageOf mv.2 + 1 else m'.stageOf mv'.2 :=
        getD_set _ _ _ _ _ (by rw [h.stageCounts]; exact hl)
      rw [hg]; split
      · omega
      · exact h0
    have hcase : (MapUnit.shiftRaise m' mv = m' ∧ ∀ n, m.raised mv n = 0) ∨
        (MapUnit.shiftRaise m' mv = m'.raiseStage mv.2 ∧ ∀ n, m.raised mv n = tick mv.2 n) := by
      unfold MapUnit.shiftRaise MapUnit.raised
      rw [hst]
      cases m.staged mv.1 with
      | none => exact Or.inr ⟨rfl, fun _ => rfl⟩
      | some e =>
        by_cases he : e.line = mv.2
        · exact Or.inl ⟨by simp [he], fun n => by simp [he]⟩
        · exact Or.inr ⟨by simp [he], fun n => by simp [he]⟩
    rcases hcase with ⟨hc, hz⟩ | ⟨hc, hz⟩
    · rw [hc]
      exact (ih h hs hrest).congr (fun _ => rfl) (fun n => by simp [hz])
    · rw [hc]
      exact (ih hraise hs hrest').congr (fun _ => rfl) (fun n => by simp [hz]; ring)

/-- Step 2. -/
theorem Within.foldl_putStaged (set : SetId) (moves : List (Nat × Nat)) {m m' : MapUnit} {sx : Nat → Int}
    (h : m'.Within (fun _ => 0) sx none) (hd : (moves.map Prod.fst).Nodup)
    (hs : ∀ mv ∈ moves, m'.staged mv.1 = m.staged mv.1)
    (hm : ∀ mv ∈ moves, mv.1 < Config.rows ∧ mv.2 < Config.storeLines) :
    (moves.foldl (fun m' mv => m'.putStaged mv.1 (some ⟨mv.2, set⟩)) m').Within (fun _ => 0)
      (fun n => sx n + (moves.map fun mv => naming (m.staged mv.1) n - naming (some ⟨mv.2, set⟩) n).sum) none := by
  induction moves generalizing m' sx with
  | nil => exact h.congr (fun _ => rfl) (fun n => by simp)
  | cons mv moves ih =>
    rw [List.foldl_cons]
    obtain ⟨hr, hl⟩ := hm mv (by simp)
    rw [List.map_cons, List.nodup_cons] at hd
    have hput := h.putStaged hr (some ⟨mv.2, set⟩) (by intro e he; cases he; exact hl)
    refine (ih hput hd.2 (fun mv' hmv' => ?_) (fun mv' hmv' => hm mv' (by simp [hmv']))).congr (fun _ => rfl)
      (fun n => ?_)
    · rw [staged_putStaged _ _ (by rw [h.stageLength]; exact hr), if_neg]
      · exact hs mv' (by simp [hmv'])
      · intro e
        exact hd.1 (e ▸ List.mem_map_of_mem hmv')
    · rw [hs mv (by simp)]; simp; ring

/-- Steps 3 and 4. -/
theorem Within.foldl_shiftLower (marks : List Bool) (moves : List (Nat × Nat)) {m m' : MapUnit}
    (hl : ∀ mv ∈ moves, ∀ l, m.lowered mv = some l → l < Config.storeLines)
    (h : m'.Within (fun _ => 0) (fun n => (moves.map fun mv => m.loweredTick mv n).sum) none) :
    (moves.foldl (MapUnit.shiftLower marks m) m').Consistent := by
  induction moves generalizing m' with
  | nil => exact (h.congr (fun _ => rfl) (fun n => by simp)).consistent
  | cons mv moves ih =>
    rw [List.foldl_cons]
    refine ih (fun mv' hmv' => hl mv' (by simp [hmv'])) ?_
    have hcase : (MapUnit.shiftLower marks m m' mv = m' ∧ m.lowered mv = none) ∨
        ∃ l, MapUnit.shiftLower marks m m' mv = MapUnit.returnTest marks (m'.lowerStage l) l ∧
          m.lowered mv = some l := by
      unfold MapUnit.shiftLower MapUnit.lowered
      cases m.staged mv.1 with
      | none => exact Or.inl ⟨rfl, rfl⟩
      | some e =>
        by_cases he : e.line = mv.2
        · exact Or.inl ⟨by simp [he], by simp [he]⟩
        · exact Or.inr ⟨e.line, by simp [he], by simp [he]⟩
    rcases hcase with ⟨hc, hn⟩ | ⟨l, hc, hn⟩
    · rw [hc]
      exact h.congr (fun _ => rfl) (fun n => by simp [loweredTick, hn])
    · rw [hc]
      have hll := hl mv (by simp) l hn
      refine ((h.lowerStage hll ?_).returnTest marks hll).congr (fun _ => rfl) (fun n => ?_)
      · have := sum_loweredTick_nonneg m moves l
        simp only [List.map_cons, List.sum_cons]
        have : m.loweredTick mv l = 1 := by simp [loweredTick, hn, tick]
        omega
      · simp [loweredTick, hn]

/-- SHIFT_CLAIM keeps the Map Unit consistent (01 R15). -/
theorem Consistent.afterMoves {m : MapUnit} (h : m.Consistent) (marks : List Bool) (set : SetId)
    (moves : List (Nat × Nat)) (hd : (moves.map Prod.fst).Nodup)
    (hm : ∀ mv ∈ moves, mv.1 < Config.rows ∧ mv.2 < Config.storeLines ∧ (m.liveOf mv.2 ≠ 0 ∨ m.stageOf mv.2 ≠ 0)) :
    (MapUnit.afterMoves marks m set moves).Consistent := by
  unfold MapUnit.afterMoves
  have h1 := Within.foldl_shiftRaise moves (m := m) h.within rfl (fun mv hmv => (hm mv hmv).2)
  have hst : (moves.foldl MapUnit.shiftRaise m).staging = m.staging := foldl_shiftRaise_staging moves m
  have h2 := Within.foldl_putStaged set moves (m := m) h1 hd
    (fun mv _ => by unfold MapUnit.staged; rw [hst]) (fun mv hmv => ⟨(hm mv hmv).1, (hm mv hmv).2.1⟩)
  refine Within.foldl_shiftLower marks moves ?_ (h2.congr (fun _ => rfl) (fun n => ?_))
  · intro mv _ l hl
    unfold MapUnit.lowered at hl
    cases hs : m.staged mv.1 with
    | none => rw [hs] at hl; exact absurd hl (by simp)
    | some e =>
      rw [hs] at hl
      dsimp only at hl
      split at hl
      · exact absurd hl (by simp)
      · have : e.line = l := by simpa using hl
        exact this ▸ (h.staged_referenced hs).1
  · clear h1 h2 hst hm hd
    induction moves with
    | nil => simp
    | cons mv moves ih =>
      simp only [List.map_cons, List.sum_cons]
      have := raised_balance m mv set n
      linarith

theorem shiftSource_lt (row0 height : Nat) (d : Int) (row : Nat) (h : 0 < height) :
    shiftSource row0 height d row < row0 + height := by
  unfold shiftSource
  have h1 : ((row : Int) - row0 + d) % height < height := Int.emod_lt_of_pos _ (by omega)
  have h2 : 0 ≤ ((row : Int) - row0 + d) % height := Int.emod_nonneg _ (by omega)
  omega

/-- SHIFT_CLAIM keeps the Map Unit consistent (01 R15). -/
theorem Consistent.afterShift {m : MapUnit} (h : m.Consistent) (marks : List Bool) (set : SetId)
    (row0 height : Nat) (d : Int) : (MapUnit.afterShift marks m set row0 height d).Consistent := by
  unfold MapUnit.afterShift MapUnit.shiftMoves
  split
  · rename_i hh
    refine h.afterMoves marks set _ ?_ fun mv hmv => ?_
    · rw [List.map_map]
      have : (Prod.fst ∘ fun r => (r, m.view set (shiftSource row0 height d r))) = id := rfl
      rw [this, List.map_id]
      exact List.nodup_range'
    · obtain ⟨r, hr, rfl⟩ := List.mem_map.1 hmv
      rw [List.mem_range'] at hr
      obtain ⟨i, hi, rfl⟩ := hr
      refine ⟨by dsimp only; omega, h.view_referenced set ?_⟩
      have := shiftSource_lt row0 height d (row0 + 1 * i) (by omega)
      omega
  · exact h.afterMoves marks set [] (by simp) (by simp)

/-! ### Unwinding and publication -/

theorem Consistent.unwindRow {m : MapUnit} (h : m.Consistent) (marks : List Bool) (set : SetId) {row : Nat}
    (hr : row < Config.rows) : (MapUnit.unwindRow marks set m row).Consistent := by
  unfold MapUnit.unwindRow
  cases ho : m.ownLine set row with
  | none => exact h
  | some p =>
    obtain ⟨e, he, hp, _⟩ := ownLine_staged ho
    subst hp
    have hl := (h.staged_referenced he).1
    have h1 := h.within.putStaged hr none (by simp)
    have h2 := h1.lowerStage (line := e.line) hl (by simp [he, naming, tick])
    exact ((h2.returnTest marks hl).congr (fun _ => rfl) (fun n => by simp [he, naming])).consistent

theorem Consistent.publishRow {m : MapUnit} (h : m.Consistent) (marks : List Bool) (set : SetId) {row : Nat}
    (hr : row < Config.rows) : (MapUnit.publishRow marks set m row).Consistent := by
  unfold MapUnit.publishRow
  cases ho : m.ownLine set row with
  | none => exact h
  | some p =>
    obtain ⟨e, he, hp, _⟩ := ownLine_staged ho
    subst hp
    have hl := (h.staged_referenced he).1
    obtain ⟨hlive, hliveRef⟩ := h.live_referenced hr
    have hlen : row < m.live.length := by rw [h.liveLength]; exact hr
    have hget : m.live[row] = m.liveLine row := by rw [MapUnit.liveLine, List.getD_eq_getElem _ _ hlen]
    have h1 := h.within.putStaged hr none (by simp)
    have h2 := h1.lowerStage (line := e.line) hl (by simp [he, naming, tick])
    dsimp only
    split
    · rename_i heq
      refine (Within.congr (sx := fun n => (fun n => (0:Int) + naming (m.staged row) n - naming none n) n - tick e.line n)
        (out := none) { h2 with standsWhere := fun n => ?_ } (fun _ => rfl) (fun n => by simp [he, naming])).consistent
      have hw := h2.standsWhere n
      rw [hw]
      by_cases en : n = e.line
      · have hlo : ((m.putStaged row none).lowerStage e.line).liveOf n = m.liveOf n := rfl
        rw [hlo, en, heq]
        simp [hliveRef]
      · have en' : ¬ e.line = n := fun h => en h.symm
        simp [en']
    · rename_i hne
      generalize hm1 : (m.putStaged row none).lowerStage e.line = m1 at h2
      have hm1live : m1.live = m.live := by rw [← hm1]; rfl
      have hset : ({ m1 with live := m1.live.set row e.line } : MapUnit).Within
          (fun n => (0:Int) + tick (m.liveLine row) n - tick e.line n)
          (fun n => (fun n => (0:Int) + naming (m.staged row) n - naming none n) n - tick e.line n) (some e.line) := by
        refine { h2 with liveLength := ?_, liveNames := ?_, liveCounted := ?_, standsWhere := fun n => h2.standsWhere n }
        · exact (List.length_set ..).trans h2.liveLength
        · intro n hn
          rcases List.mem_or_eq_of_mem_set hn with hn | hn
          · exact h2.liveNames n hn
          · exact hn ▸ hl
        · intro n hn
          have hc := h2.liveCounted n hn
          have hlen1 : row < m1.live.length := by rw [hm1live]; exact hlen
          have hs := count_set_int m1.live row e.line n hlen1
          have hget1 : m1.live[row] = m.liveLine row := by rw [← hget]; congr 1
          show (m1.liveOf n : Int) = ((m1.live.set row e.line).count n : Int) + _
          rw [hs, hget1, hc]; ring
      have h3 := hset.raiseLive hl (Or.inl rfl)
      have h4 := h3.lowerLive (line := m.liveLine row) hlive (by simp [tick])
      exact ((h4.returnTest marks hlive).congr (fun n => by simp) (fun n => by simp [he, naming])).consistent

theorem Consistent.foldl {f : MapUnit → Nat → MapUnit} (hf : ∀ m r, m.Consistent → r < Config.rows → (f m r).Consistent)
    (rows : List Nat) (hr : ∀ r ∈ rows, r < Config.rows) {m : MapUnit} (h : m.Consistent) :
    (rows.foldl f m).Consistent := by
  induction rows generalizing m with
  | nil => exact h
  | cons r rows ih => exact ih (fun r' h' => hr r' (by simp [h'])) (hf m r h (hr r (by simp)))

theorem allRows_lt : ∀ r ∈ allRows, r < Config.rows := fun _ h => List.mem_range.1 h

/-- UNWIND_CLAIM keeps the Map Unit consistent (01 R16). -/
theorem Consistent.afterUnwind {m : MapUnit} (h : m.Consistent) (marks : List Bool) (set : SetId) :
    (MapUnit.afterUnwind marks m set).Consistent :=
  Consistent.foldl (fun _ _ h hr => h.unwindRow marks set hr) allRows allRows_lt h

/-- PUBLISH_CLAIM keeps the Map Unit consistent (01 R17). -/
theorem Consistent.afterPublish {m : MapUnit} (h : m.Consistent) (marks : List Bool) (set : SetId) :
    (MapUnit.afterPublish marks m set).Consistent := by
  have h' : (allRows.foldl (MapUnit.publishRow marks set) m).Consistent :=
    Consistent.foldl (fun _ _ h hr => h.publishRow marks set hr) allRows allRows_lt h
  unfold MapUnit.afterPublish
  generalize allRows.foldl (MapUnit.publishRow marks set) m = m' at h' ⊢
  exact { h' with }

/-- MARK_NOTICE keeps the Map Unit consistent (01 R10). -/
theorem Consistent.afterMark {m : MapUnit} (h : m.Consistent) (line : Nat) : (m.afterMark line).Consistent := by
  unfold MapUnit.afterMark
  split
  · rename_i hc
    have hmem : line ∈ m.pool := by simpa using hc
    have hperm : (m.pool.erase line ++ (m.damaged ++ [line])).Perm (m.pool ++ m.damaged) := by
      rw [← List.append_assoc]
      exact List.perm_append_comm.trans ((List.perm_cons_erase hmem).symm.append_right m.damaged)
    exact { h with
      standsOnce := hperm.nodup_iff.2 h.standsOnce
      standsWhere := fun n => (hperm.mem_iff).trans (h.standsWhere n) }
  · exact h

theorem getD_replicate_self {α : Type} (k n : Nat) (v : α) : (List.replicate k v).getD n v = v := by
  rw [List.getD_eq_getElem?_getD, List.getElem?_replicate]
  split <;> rfl

theorem reset_liveOf (n : Nat) : MapUnit.reset.liveOf n = if n = 0 then 240 else 0 := by
  cases n with
  | zero => rfl
  | succ k => exact getD_replicate_self 383 k 0

theorem reset_stageOf (n : Nat) : MapUnit.reset.stageOf n = 0 := getD_replicate_self 384 n 0

theorem reset_liveNames : ∀ n ∈ MapUnit.reset.live, n < Config.storeLines := by
  intro n h
  rw [List.eq_of_mem_replicate h]
  decide

theorem reset_stageNames : ∀ e, some e ∈ MapUnit.reset.staging → e.line < Config.storeLines := by
  intro e h
  have := List.eq_of_mem_replicate h
  contradiction

theorem reset_liveCounted (n : Nat) : MapUnit.reset.liveOf n = MapUnit.reset.live.count n := by
  have : MapUnit.reset.live.count n = if (0 == n) = true then 240 else 0 := List.count_replicate
  rw [this, reset_liveOf]
  cases n <;> rfl

theorem reset_stageCounted (n : Nat) : MapUnit.reset.stageOf n = MapUnit.reset.stagedNaming n := by
  have : MapUnit.reset.stagedNaming n = if namesLine n none then 240 else 0 := List.countP_replicate
  rw [this, reset_stageOf]
  rfl

theorem reset_places : MapUnit.reset.pool ++ MapUnit.reset.damaged = List.range' 1 383 := List.append_nil _

theorem reset_standsWhere (n : Nat) : n ∈ MapUnit.reset.pool ++ MapUnit.reset.damaged ↔
    n < Config.storeLines ∧ MapUnit.reset.liveOf n = 0 ∧ MapUnit.reset.stageOf n = 0 := by
  rw [reset_places, List.mem_range'_1, reset_liveOf, reset_stageOf]
  have : Config.storeLines = 384 := rfl
  split <;> omega

/-- 01 R20: the map after reset is consistent. -/
theorem reset_consistent : MapUnit.reset.Consistent :=
  { liveLength := by decide +kernel
    stageLength := by decide +kernel
    liveCounts := by decide +kernel
    stageCounts := by decide +kernel
    liveNames := reset_liveNames
    stageNames := reset_stageNames
    liveCounted := fun n _ => reset_liveCounted n
    stageCounted := fun n _ => reset_stageCounted n
    standsOnce := reset_places ▸ List.nodup_range'
    standsWhere := reset_standsWhere }

end Sys2Proof.Machine.MapUnit
end

