-- ==== Sys2Proof/Laws/Memory.lean ====
section
/-! SUPPORT. System memory: every operation keeps the canonical form, a written byte reads back, other bytes stay, and
equal memories are equal data. -/

namespace Sys2Proof.Machine

namespace Memory

/-! ## The canonical form -/

theorem wfAbove_cons (low : Option Nat) (k : Nat) (v : Byte) (rest : Memory) :
    wfAbove low ((k, v) :: rest) =
      ((match low with
        | none => true
        | some l => decide (l < k)) && v != unlisted && wfAbove (some k) rest) := rfl

/-- A higher bound may be lowered. -/
theorem wfAbove_mono {m : Memory} {low low' : Option Nat} (h : wfAbove low m = true)
    (hl : ∀ k, (match low with | none => True | some l => l < k) → (match low' with | none => True | some l => l < k)) :
    wfAbove low' m = true := by
  cases m with
  | nil => rfl
  | cons c rest =>
    obtain ⟨k, v⟩ := c
    rw [wfAbove_cons] at h ⊢
    simp only [Bool.and_eq_true, bne_iff_ne, ne_eq] at h ⊢
    refine ⟨⟨?_, h.1.2⟩, h.2⟩
    have hk := hl k
    cases low with
    | none => cases low' with
      | none => rfl
      | some l' => simpa using hk trivial
    | some l => cases low' with
      | none => rfl
      | some l' => simpa using hk (by simpa using h.1.1)

/-- A write above the bound keeps the form. -/
theorem wfAbove_write {m : Memory} {low : Option Nat} {a : Nat} (b : Byte) (h : wfAbove low m = true)
    (ha : match low with | none => True | some l => l < a) : wfAbove low (write m a b) = true := by
  induction m generalizing low with
  | nil =>
    unfold write
    split
    · rfl
    · rename_i hb
      rw [wfAbove_cons]
      simp only [Bool.and_eq_true, bne_iff_ne, ne_eq]
      refine ⟨⟨?_, hb⟩, rfl⟩
      cases low <;> simp_all
  | cons c rest ih =>
    obtain ⟨k, v⟩ := c
    rw [wfAbove_cons] at h
    simp only [Bool.and_eq_true, bne_iff_ne, ne_eq] at h
    unfold write
    split
    · rename_i hak
      split
      · rw [wfAbove_cons]; simp only [Bool.and_eq_true, bne_iff_ne, ne_eq]; exact h
      · rename_i hb
        rw [wfAbove_cons, wfAbove_cons]
        simp only [Bool.and_eq_true, bne_iff_ne, ne_eq, decide_eq_true_eq]
        refine ⟨⟨?_, hb⟩, ⟨hak, h.1.2⟩, h.2⟩
        cases low <;> simp_all
    · split
      · rename_i _ hak
        subst hak
        split
        · refine wfAbove_mono h.2 ?_
          intro k' hk'
          cases low with
          | none => trivial
          | some l =>
            have : l < a := by simpa using h.1.1
            exact lt_trans this hk'
        · rename_i hb
          rw [wfAbove_cons]
          simp only [Bool.and_eq_true, bne_iff_ne, ne_eq]
          exact ⟨⟨h.1.1, hb⟩, h.2⟩
      · rename_i h1 h2
        rw [wfAbove_cons]
        simp only [Bool.and_eq_true, bne_iff_ne, ne_eq]
        exact ⟨h.1, ih h.2 (by show k < a; omega)⟩

/-- Writing one byte keeps the canonical form. -/
theorem wf_write {m : Memory} (a : Nat) (b : Byte) (h : wf m = true) : wf (write m a b) = true :=
  wfAbove_write b h trivial

/-- Writing some of the bytes of a transfer keeps the canonical form. -/
theorem wf_writeSome (keep : Nat → Bool) (i : Nat) (a : Word) (bs : List Byte) {m : Memory} (h : wf m = true) :
    wf (writeSome keep i m a bs) = true := by
  induction bs generalizing i m with
  | nil => exact h
  | cons b bs ih =>
    unfold writeSome
    refine ih (i + 1) ?_
    split
    · exact wf_write _ _ h
    · exact h

/-- What the host wrote keeps the canonical form. -/
theorem wf_hostWrites (host : List (Word × Byte)) {m : Memory} (h : wf m = true) : wf (hostWrites m host) = true := by
  induction host generalizing m with
  | nil => exact h
  | cons c rest ih => exact ih (wf_write _ _ h)

/-! ## Reading what was written -/

/-- Below the bound nothing is listed. -/
theorem read_of_wfAbove {m : Memory} {l a : Nat} (h : wfAbove (some l) m = true) (ha : a ≤ l) :
    read m a = unlisted := by
  induction m generalizing l with
  | nil => rfl
  | cons c rest ih =>
    obtain ⟨k, v⟩ := c
    rw [wfAbove_cons] at h
    simp only [Bool.and_eq_true, decide_eq_true_eq] at h
    have hk : k ≠ a := by omega
    unfold read
    rw [if_neg hk]
    exact ih h.2 (by omega)

theorem read_write_above {m : Memory} {low : Option Nat} (a : Nat) (b : Byte) (a' : Nat) (h : wfAbove low m = true) :
    read (write m a b) a' = if a = a' then b else read m a' := by
  induction m generalizing low with
  | nil =>
    unfold write
    by_cases hb : b = unlisted
    · simp [hb, read]
    · simp [hb, read]
  | cons c rest ih =>
    obtain ⟨k, v⟩ := c
    rw [wfAbove_cons] at h
    simp only [Bool.and_eq_true, bne_iff_ne, ne_eq] at h
    unfold write
    by_cases h1 : a < k
    · rw [if_pos h1]
      by_cases hb : b = unlisted
      · rw [if_pos hb]
        by_cases ha : a = a'
        · subst ha
          rw [if_pos rfl, hb]
          have hk : k ≠ a := by omega
          show (if k = a then v else read rest a) = _
          rw [if_neg hk]
          exact read_of_wfAbove h.2 (by omega)
        · rw [if_neg ha]
      · rw [if_neg hb]
        rfl
    · rw [if_neg h1]
      by_cases h2 : a = k
      · subst h2
        rw [if_pos rfl]
        by_cases hb : b = unlisted
        · rw [if_pos hb]
          by_cases ha : a = a'
          · subst ha
            rw [if_pos rfl, hb]
            exact read_of_wfAbove h.2 le_rfl
          · rw [if_neg ha]
            show _ = (if a = a' then v else read rest a')
            rw [if_neg ha]
        · rw [if_neg hb]
          by_cases ha : a = a'
          · subst ha; simp [read]
          · simp [read, ha]
      · rw [if_neg h2]
        show (if k = a' then v else read (write rest a b) a') = if a = a' then b else (if k = a' then v else read rest a')
        rw [ih h.2]
        by_cases hk : k = a'
        · subst hk
          rw [if_pos rfl, if_neg h2, if_pos rfl]
        · rw [if_neg hk, if_neg hk]

/-- A written byte reads back, and every other byte as before. -/
theorem read_write {m : Memory} (a : Nat) (b : Byte) (a' : Nat) (h : wf m = true) :
    read (write m a b) a' = if a = a' then b else read m a' := read_write_above a b a' h

/-- A transfer leaves every byte outside it as it was. -/
theorem read_writeSome_outside (keep : Nat → Bool) (i : Nat) (a : Word) (bs : List Byte) {m : Memory} (h : wf m = true)
    (x : Nat) (hx : ∀ j, j < bs.length → (a + BitVec.ofNat 32 (i + j)).toNat ≠ x) :
    read (writeSome keep i m a bs) x = read m x := by
  induction bs generalizing i m with
  | nil => rfl
  | cons b bs ih =>
    unfold writeSome
    have h0 : (a + BitVec.ofNat 32 i).toNat ≠ x := by simpa using hx 0 (by simp)
    have hm : wf (if keep i then write m (a + BitVec.ofNat 32 i).toNat b else m) = true := by
      split
      · exact wf_write _ _ h
      · exact h
    rw [ih (i + 1) hm (fun j hj => by
      have := hx (j + 1) (by simpa using hj)
      rwa [show i + (j + 1) = i + 1 + j by omega] at this)]
    split
    · rw [read_write _ _ _ h, if_neg h0]
    · rfl

/-! ## Equal memories are equal data -/

theorem ext_above {m m' : Memory} {low : Option Nat} (h : wfAbove low m = true) (h' : wfAbove low m' = true)
    (he : ∀ a, read m a = read m' a) : m = m' := by
  induction m generalizing low m' with
  | nil =>
    cases m' with
    | nil => rfl
    | cons c rest =>
      obtain ⟨k, v⟩ := c
      rw [wfAbove_cons] at h'
      simp only [Bool.and_eq_true, bne_iff_ne, ne_eq] at h'
      have := he k
      simp [read] at this
      exact absurd this.symm h'.1.2
  | cons c rest ih =>
    obtain ⟨k, v⟩ := c
    have hc := h
    rw [wfAbove_cons] at h
    simp only [Bool.and_eq_true, bne_iff_ne, ne_eq] at h
    cases m' with
    | nil =>
      have := he k
      simp [read] at this
      exact absurd this h.1.2
    | cons c' rest' =>
      obtain ⟨k', v'⟩ := c'
      rw [wfAbove_cons] at h'
      simp only [Bool.and_eq_true, bne_iff_ne, ne_eq] at h'
      have hk : k = k' := by
        rcases lt_trichotomy k k' with hlt | heq | hgt
        · have h1 : read ((k, v) :: rest) k = v := if_pos rfl
          have h2 : read ((k', v') :: rest') k = unlisted :=
            (if_neg (by omega)).trans (read_of_wfAbove h'.2 hlt.le)
          exact absurd (h1.symm.trans ((he k).trans h2)) h.1.2
        · exact heq
        · have h1 : read ((k', v') :: rest') k' = v' := if_pos rfl
          have h2 : read ((k, v) :: rest) k' = unlisted :=
            (if_neg (by omega)).trans (read_of_wfAbove h.2 hgt.le)
          exact absurd (h1.symm.trans ((he k').symm.trans h2)) h'.1.2
      subst hk
      have hv : v = v' := by simpa [read] using he k
      subst hv
      congr 1
      refine ih h.2 h'.2 fun a => ?_
      by_cases ha : k = a
      · subst ha
        rw [read_of_wfAbove h.2 le_rfl, read_of_wfAbove h'.2 le_rfl]
      · simpa [read, ha] using he a

/-- Two memories in canonical form that read alike are the same list. -/
theorem ext_of_read {m m' : Memory} (h : wf m = true) (h' : wf m' = true) (he : ∀ a, read m a = read m' a) : m = m' :=
  ext_above h h' he

end Memory

/-- The end of a bus write keeps the canonical form. -/
theorem wf_busWriteMemory (bus : BusEvent) {m : Memory} (a : Word) (bs : List Byte) (h : Memory.wf m = true) :
    Memory.wf (busWriteMemory bus m a bs) = true := by
  unfold busWriteMemory
  split
  · exact Memory.wf_writeSome _ _ _ _ (Memory.wf_hostWrites _ h)
  · exact Memory.wf_writeSome _ _ _ _ (Memory.wf_hostWrites _ h)

/-- The end of a bus write keeps the canonical form of the state's memory. -/
theorem State.wf_busWrite (s : State) (bus : BusEvent) (a : Word) (bs : List Byte) (h : Memory.wf s.mem = true) :
    Memory.wf (s.busWrite bus a bs).mem = true := wf_busWriteMemory bus a bs h

/-- The end of a bus read keeps it. -/
theorem State.wf_busRead (s : State) (bus : BusEvent) (h : Memory.wf s.mem = true) :
    Memory.wf (s.busRead bus).mem = true := Memory.wf_hostWrites _ h

/-- The completion of a transfer that had begun keeps it. -/
theorem State.wf_completeBegun (s : State) (begun : Begun) (h : Memory.wf s.mem = true) :
    Memory.wf (s.completeBegun begun).mem = true := by
  unfold State.completeBegun
  split
  · exact h
  · split
    · exact h
    · exact State.wf_busWrite _ _ _ _ h

/-- Memory right after reset is in canonical form. -/
theorem State.reset_mem_wf : Memory.wf State.reset.mem = true := rfl

end Sys2Proof.Machine
end

