-- ==== Sys2Proof/Laws/PerInstr.lean ====
section
/-! SUPPORT. A family of statements about each command as syntax: in a well-formed command every bus transfer, that of
the command itself and that a reset found begun, left bytes only at offsets that a transfer of the part can have. -/

namespace Sys2Proof.Laws.BusBounded

/-- The transfers a command tells of are bounded (09 R164: at most 640 bytes). -/
def Statement (c : Instr) : Prop :=
  c.wellFormed = true → (∀ bus, c.busEvent = some bus → busOk bus = true) ∧ begunOk c.begunWrite = true

/-- A command that ends no bus transfer and is no reset. -/
theorem of_none {c : Instr} (h : c.busEvent = none) (h' : c.begunWrite = none) : Statement c := by
  intro _
  rw [h, h']
  exact ⟨fun _ e => (by cases e), rfl⟩

/-- A command that ends a bus transfer. -/
theorem of_bus {c : Instr} {bus : BusEvent} (h : c.busEvent = some bus) (h' : c.begunWrite = none)
    (hw : c.wellFormed = busOk bus) : Statement c := by
  intro w
  rw [h, h']
  exact ⟨fun _ e => Option.some.inj e ▸ (hw ▸ w), rfl⟩

/-- A reset. -/
theorem of_begun {c : Instr} (h : c.busEvent = none) (hw : c.wellFormed = begunOk c.begunWrite) : Statement c := by
  intro w
  rw [h]
  exact ⟨fun _ e => (by cases e), hw ▸ w⟩

theorem powerOnReset (begun : Begun) : Statement (.powerOnReset begun) := of_begun rfl rfl
theorem start (source : CmdSource) : Statement (.start source) := of_none rfl rfl
theorem planRead (bus : BusEvent) : Statement (.planRead bus) := of_bus rfl rfl rfl
theorem stop (source : CmdSource) : Statement (.stop source) := of_none rfl rfl
theorem sleep (source : CmdSource) : Statement (.sleep source) := of_none rfl rfl
theorem wake (source : CmdSource) : Statement (.wake source) := of_none rfl rfl
theorem reset (begun : Begun) : Statement (.reset begun) := of_begun rfl rfl
theorem enableWrite (value : Word) : Statement (.enableWrite value) := of_none rfl rfl
theorem exbWrite (value : Word) : Statement (.exbWrite value) := of_none rfl rfl
theorem stsWrite (value : Word) : Statement (.stsWrite value) := of_none rfl rfl
theorem registerWriteIgnored (offset width : Nat) (value : Word) : Statement (.registerWriteIgnored offset width value) := of_none rfl rfl
theorem startingLineFill : Statement (.startingLineFill) := of_none rfl rfl
theorem laneSetup (bus : BusEvent) : Statement (.laneSetup bus) := of_bus rfl rfl rfl
theorem setupComplete : Statement (.setupComplete) := of_none rfl rfl
theorem rampUpEnd (moment : Nat) : Statement (.rampUpEnd moment) := of_none rfl rfl
theorem rampDownEnd (moment : Nat) : Statement (.rampDownEnd moment) := of_none rfl rfl
theorem sleepingQuiesced : Statement (.sleepingQuiesced) := of_none rfl rfl
theorem stoppingEngineIdle : Statement (.stoppingEngineIdle) := of_none rfl rfl
theorem stoppingComplete : Statement (.stoppingComplete) := of_none rfl rfl
theorem boundaryEvaluation : Statement (.boundaryEvaluation) := of_none rfl rfl
theorem damageLimitReport : Statement (.damageLimitReport) := of_none rfl rfl
theorem recorderFailureReport : Statement (.recorderFailureReport) := of_none rfl rfl
theorem frameStart (moment : Nat) : Statement (.frameStart moment) := of_none rfl rfl
theorem rowOutput (moment : Nat) : Statement (.rowOutput moment) := of_none rfl rfl
theorem beginOrder : Statement (.beginOrder) := of_none rfl rfl
theorem beginWithBlankFrame : Statement (.beginWithBlankFrame) := of_none rfl rfl
theorem frameCadence : Statement (.frameCadence) := of_none rfl rfl
theorem heldCadence : Statement (.heldCadence) := of_none rfl rfl
theorem finishOrder : Statement (.finishOrder) := of_none rfl rfl
theorem haltScanning : Statement (.haltScanning) := of_none rfl rfl
theorem commitBoundary : Statement (.commitBoundary) := of_none rfl rfl
theorem publicationComplete : Statement (.publicationComplete) := of_none rfl rfl
theorem commitMarkEnd (moment : Nat) : Statement (.commitMarkEnd moment) := of_none rfl rfl
theorem publicationReport : Statement (.publicationReport) := of_none rfl rfl
theorem committedOutcomeWrite (bus : BusEvent) : Statement (.committedOutcomeWrite bus) := of_bus rfl rfl rfl
theorem readyAppend : Statement (.readyAppend) := of_none rfl rfl
theorem laneBoundary : Statement (.laneBoundary) := of_none rfl rfl
theorem laneRequestRead (bus : BusEvent) : Statement (.laneRequestRead bus) := of_bus rfl rfl rfl
theorem nextLinkRead (bus : BusEvent) : Statement (.nextLinkRead bus) := of_bus rfl rfl rfl
theorem headerRead (bus : BusEvent) : Statement (.headerRead bus) := of_bus rfl rfl rfl
theorem laneRecordWrite (bus : BusEvent) : Statement (.laneRecordWrite bus) := of_bus rfl rfl rfl
theorem endReport (reporter : EndReporter) : Statement (.endReport reporter) := of_none rfl rfl
theorem completionReport : Statement (.completionReport) := of_none rfl rfl
theorem stopNotice : Statement (.stopNotice) := of_none rfl rfl
theorem pollReport : Statement (.pollReport) := of_none rfl rfl
theorem eligibilityReport : Statement (.eligibilityReport) := of_none rfl rfl
theorem grantRequest : Statement (.grantRequest) := of_none rfl rfl
theorem grant : Statement (.grant) := of_none rfl rfl
theorem grantAnswer : Statement (.grantAnswer) := of_none rfl rfl
theorem arbiterBoundary : Statement (.arbiterBoundary) := of_none rfl rfl
theorem trailerReadStart (bus : BusEvent) : Statement (.trailerReadStart bus) := of_bus rfl rfl rfl
theorem opRecordRead (bus : BusEvent) : Statement (.opRecordRead bus) := of_bus rfl rfl rfl
theorem writeClaimAnswer : Statement (.writeClaimAnswer) := of_none rfl rfl
theorem engineLineReadAnswer : Statement (.engineLineReadAnswer) := of_none rfl rfl
theorem engineLineWriteDone : Statement (.engineLineWriteDone) := of_none rfl rfl
theorem aliasClaimAnswer : Statement (.aliasClaimAnswer) := of_none rfl rfl
theorem shiftClaimAnswer : Statement (.shiftClaimAnswer) := of_none rfl rfl
theorem viewReadAnswer : Statement (.viewReadAnswer) := of_none rfl rfl
theorem sourceRowRead (bus : BusEvent) : Statement (.sourceRowRead bus) := of_bus rfl rfl rfl
theorem readbackRowWrite (bus : BusEvent) : Statement (.readbackRowWrite bus) := of_bus rfl rfl rfl
theorem trailerReadEnd (bus : BusEvent) : Statement (.trailerReadEnd bus) := of_bus rfl rfl rfl
theorem unwindAnswer : Statement (.unwindAnswer) := of_none rfl rfl
theorem abortOutcomeWrite (bus : BusEvent) : Statement (.abortOutcomeWrite bus) := of_bus rfl rfl rfl
theorem releaseNotice : Statement (.releaseNotice) := of_none rfl rfl
theorem abortRequestStop : Statement (.abortRequestStop) := of_none rfl rfl
theorem abortRequestLane : Statement (.abortRequestLane) := of_none rfl rfl
theorem viewRead : Statement (.viewRead) := of_none rfl rfl
theorem liveRead : Statement (.liveRead) := of_none rfl rfl
theorem writeClaim : Statement (.writeClaim) := of_none rfl rfl
theorem aliasClaim (flaws : List (Nat × Flaw)) : Statement (.aliasClaim flaws) := of_none rfl rfl
theorem shiftClaim : Statement (.shiftClaim) := of_none rfl rfl
theorem unwindClaim : Statement (.unwindClaim) := of_none rfl rfl
theorem publishClaim : Statement (.publishClaim) := of_none rfl rfl
theorem markNotice : Statement (.markNotice) := of_none rfl rfl
theorem lineRead (reader : LineReader) (flaws : List (Nat × Flaw)) : Statement (.lineRead reader flaws) := of_none rfl rfl
theorem wholeLineWrite (writer : LineWriter) : Statement (.wholeLineWrite writer) := of_none rfl rfl
theorem spanWrite : Statement (.spanWrite) := of_none rfl rfl
theorem faultRequest (sender : FaultSender) : Statement (.faultRequest sender) := of_none rfl rfl
theorem faultSearchRead (bus : BusEvent) : Statement (.faultSearchRead bus) := of_bus rfl rfl rfl
theorem faultEntryWrite (bus : BusEvent) : Statement (.faultEntryWrite bus) := of_bus rfl rfl rfl
theorem overflowClear : Statement (.overflowClear) := of_none rfl rfl
theorem flagSetRequest (flag : Flag) : Statement (.flagSetRequest flag) := of_none rfl rfl
theorem commandResult : Statement (.commandResult) := of_none rfl rfl
theorem resetPinAsserted (begun : Begun) : Statement (.resetPinAsserted begun) := of_begun rfl rfl
theorem sleepStopEndingsDone : Statement (.sleepStopEndingsDone) := of_none rfl rfl

end Sys2Proof.Laws.BusBounded
end

