-- ==== Sys2Proof/Laws/Store.lean ====
section
/-! SUPPORT. The Line Store's operations keep it consistent: 384 lines and marks, and the marked count the number of
marks. -/

namespace Sys2Proof.Machine

namespace LineStore

theorem no_marks : 0 = (List.replicate 384 false).count true := by
  rw [List.count_replicate]; rfl

theorem Consistent.afterRead {st : LineStore} (h : st.Consistent) (n : Nat) (flaws : List (Nat × Flaw)) :
    (st.afterRead n flaws).Consistent := by
  unfold LineStore.afterRead
  split
  · exact h
  · rename_i hm
    split
    · rename_i hd
      have hn : n < Config.storeLines := by
        unfold LineStore.damages at hd
        simp only [Bool.and_eq_true, decide_eq_true_eq] at hd
        exact hd.1
      have hlen : n < st.marks.length := by rw [h.markCount]; exact hn
      refine ⟨(List.length_set ..).trans h.lineCount, (List.length_set ..).trans h.markCount, ?_⟩
      have hg : st.marks[n] = false := by
        unfold LineStore.marked at hm
        rw [List.getD_eq_getElem _ _ hlen] at hm
        simpa using hm
      show st.markedCount + 1 = (st.marks.set n true).count true
      rw [List.count_set hlen, hg, h.counted]
      simp
    · exact ⟨(List.length_set ..).trans h.lineCount, h.markCount, h.counted⟩

theorem Consistent.writeWhole {st : LineStore} (h : st.Consistent) (n : Nat) (vs : List Half) :
    (st.writeWhole n vs).Consistent :=
  ⟨(List.length_set ..).trans h.lineCount, h.markCount, h.counted⟩

theorem Consistent.writeSpan {st : LineStore} (h : st.Consistent) (sp : Span) : (st.writeSpan sp).Consistent :=
  ⟨(List.length_set ..).trans h.lineCount, h.markCount, h.counted⟩

theorem Consistent.softReset {st : LineStore} (h : st.Consistent) : st.softReset.Consistent :=
  ⟨h.lineCount, List.length_replicate .., no_marks⟩

theorem reset_consistent (powerOns : Nat) : (LineStore.reset powerOns).Consistent :=
  ⟨List.length_replicate .., List.length_replicate .., no_marks⟩

/-- Writing leaves marks and count as they are (01 R3). -/
theorem writeWhole_marks (st : LineStore) (n : Nat) (vs : List Half) : (st.writeWhole n vs).marks = st.marks := rfl
theorem writeSpan_marks (st : LineStore) (sp : Span) : (st.writeSpan sp).marks = st.marks := rfl

end LineStore

/-- A read served for whoever asked keeps the store consistent. -/
theorem State.serveRead_store_consistent {s : State} (h : s.store.Consistent) (n : Nat) (flaws : List (Nat × Flaw)) :
    (s.serveRead n flaws).store.Consistent := by
  unfold State.serveRead
  split
  · unfold State.reportMark
    dsimp only
    split <;> exact h.afterRead n _
  · exact h.afterRead n _
  · exact h.afterRead n _

end Sys2Proof.Machine
end

