-- ==== Sys2Proof/Tests/Slice0.lean ====
section
/-! SUPPORT. Tests on small states: each well-formedness check refuses an ill-formed command; commands of every unit do
what the manual's worked examples say; and every statement with hypotheses has a state that meets them, clause by
clause. -/

namespace Sys2Proof.Tests

open Sys2Proof.Machine

/-! ## Small states -/

def clean : BusEvent := ⟨[], none⟩
def broken : BusEvent := ⟨[], some [0]⟩
def headerA : HeaderCopy := { address := 0x1000, lane := 0, serial := 7, opCount := 1, notify := true }
def opOf (kind : Byte) : OpRecord :=
  { kind := kind, arg := 0, col0 := 0, col1 := 3, row0 := 0, row1 := 1, arg10 := 1, arg12 := 0, arg14 := 8 }
def slotOf (kind : Byte) (p : Progress) : Slot :=
  { lane := 0, header := headerA, fetchedFrame := 3, opIndex := 0, op := some (opOf kind), progress := p, named := [],
    abortCause := none, final := none }
def doomed (sl : Slot) : Slot := { sl with abortCause := some .stopped }
def figures : FinalFigures := ⟨.torn, none, 0⟩
def engineAt (k : EngineLink) (sl : Slot) : State :=
  { State.reset with engine := { state := .applying, slot := some sl, link := k, completionsOwed := 0 } }
def planA : Plan :=
  { format := 1, period := 100, holdThreshold := 1, holdDivider := 2, markMode := .commit, background := 0,
    faultColour := 9, zones := [⟨0, 240, 0, true⟩] }
def withMode (f : ModeController → ModeController) : State := { State.reset with mode := f State.reset.mode }
def inPart (p : PartState) : State := withMode fun m => { m with part := p, plan := some planA }
def handed (c : PartCommand) (p : PartState) : State :=
  { withMode fun m => { m with part := p, command := .handed } with
    port := { RegisterPort.reset with inHand := some c } }
def withMail (f : Mail → Mail) : State := { State.reset with mail := f Mail.empty }
def withScan (f : ScanUnit → ScanUnit) : State := { inPart .active with scan := f ScanUnit.reset }
def withCommit (f : CommitUnit → CommitUnit) : State := { inPart .active with commit := f CommitUnit.reset }
def unitIn (st : LaneState) : LaneUnit := { LaneUnit.reset with state := st, lastTicket := some 0 }
def entryOf (m : EntryMark) : IntakeEntry := { header := headerA, commitFrame := 0, mark := m }
def stoppedJob (p : PollPhase) : BoundaryJob :=
  { lane := 0, phase := p, appended := false, ticketTaken := false, stopNoted := true }
def jobAt (p : PollPhase) : BoundaryJob :=
  { lane := 0, phase := p, appended := false, ticketTaken := false, stopNoted := false }
def laneAt (u : LaneUnit) (job : Option BoundaryJob) (agenda : List LaneTask) : State :=
  { inPart .active with
    port := { RegisterPort.reset with exb := 64 }
    lanes := { lanes := ⟨u, .reset, .reset, .reset⟩, setup := none, job := job, agenda := agenda } }
def putBytes (s : State) (m : List Host.Cell) : State := { s with mem := m }
def pinHeld : State := { State.reset with port := { RegisterPort.reset with resetPin := true } }
def readyEntry : ReadyEntry := { header := headerA, lane := 0, condition := .waiting, commitFrame := 0, rowsStaged := 0 }
def faultOf (l : Lane) : FaultRequest := haltRequest l .linkFault 0 0
def stampedA : StampedFault := { request := faultOf 0, part := .active, frame := 0 }
def recording (f : FaultRecorder → FaultRecorder) : State := { State.reset with recorder := f FaultRecorder.reset }
def heldLine (st : LineStore) : LineStore := { st with lines := st.lines.set 0 (.held (List.replicate 320 5) []) }
def withMap (s : State) (f : MapUnit → MapUnit) : State := { s with map := f MapUnit.reset }
def stagedMap (line : Nat) (m : MapUnit) : MapUnit :=
  { m with staging := m.staging.set 0 (some ⟨line, ⟨0, 7⟩⟩), stageCount := m.stageCount.set line 1 }
def selecting (a b : ArbiterLane) (ua ub : LaneUnit) : State :=
  { inPart .active with
    lanes := { LaneService.reset with lanes := ⟨ua, ub, .reset, .reset⟩ }
    arbiter := { lanes := ⟨a, b, .reset, .reset⟩, ring := 3, grant := .none, requestWaiting := true } }
def candidateUnit : LaneUnit := { unitIn .running with intake := [entryOf .ordinary] }
def upperUnit : LaneUnit := { candidateUnit with laneClass := .urgent }
def creditLane : ArbiterLane := { ArbiterLane.reset with credit := 2 }

/-- STARTING with the panel's ramp up under way, and SLEEPING with its halt order on the way. -/
def rampingUp : State := withMode fun m => { m with part := .starting, panel := .rising, startup := .ramp }
def haltSent : State :=
  { withMode fun m => { m with part := .sleeping, panel := .lit, haltSent := true } with
    scan := { ScanUnit.reset with mode := .frame, row := some 7 }
    mail := { Mail.empty with scanOrders := [.haltScanning] } }

theorem rampingUp_modeConsistent : rampingUp.ModeConsistent :=
  ⟨by decide, by decide, by decide, by decide, by decide, nofun, by decide, by decide, by decide, by decide, by decide,
    by decide⟩

/-- Whether a command answered a next state with a property. -/
def answers (r : Result) (p : State → Bool) : Bool :=
  match r with
  | .next t => p t
  | _ => false

/-! ## Well-formedness: each check refuses an ill-formed command -/

theorem test_wellFormed_registerWriteIgnored :
    Instr.wellFormed (.registerWriteIgnored 0x0C 4 1) = true ∧ Instr.wellFormed (.registerWriteIgnored 0x04 2 1) = true ∧
      Instr.wellFormed (.registerWriteIgnored 0x02 4 1) = true ∧
      Instr.wellFormed (.registerWriteIgnored 0x04 4 1) = false := by decide

theorem test_wellFormed_enableWrite :
    Instr.wellFormed (.enableWrite 0x001F0000) = true ∧ Instr.wellFormed (.enableWrite 0x001F0005) = false := by decide

theorem test_wellFormed_flaws :
    Instr.wellFormed (.lineRead .engine [(319, .single)]) = true ∧
      Instr.wellFormed (.lineRead .engine [(320, .single)]) = false ∧
      Instr.wellFormed (.aliasClaim [(320, .uncorrectable)]) = false := by decide

theorem test_wellFormed_bus :
    Instr.wellFormed (.planRead broken) = true ∧ Instr.wellFormed (.planRead ⟨[], some [640]⟩) = false := by decide

theorem test_wellFormed_begun :
    Instr.wellFormed (.reset (some (.engine, clean))) = true ∧
      Instr.wellFormed (.reset (some (.engine, ⟨[], some [640]⟩))) = false ∧
      Instr.wellFormed (.powerOnReset (some (.recorder, ⟨[], some [999]⟩))) = false ∧
      Instr.wellFormed (.resetPinAsserted (some (.recorder, ⟨[], some [999]⟩))) = false := by decide

/-! ## One step of each unit -/

/-- A START written in OFF with EXB at 64 begins the plan read, and one written in ACTIVE is refused. -/
theorem test_start :
    answers (exec (.start (.write 0)) { State.reset with port := { RegisterPort.reset with exb := 64 } }) (fun t => t.mode.command = .planRead) = true ∧
    answers (exec (.start (.write 0)) (inPart .active)) (fun t => t.mode.command = .answered .refusedState) = true := by decide +kernel

/-- The zones that a START's plan read accepts, written out byte by byte (10 R167). -/
theorem test_planOf :
    planOf ([1, 0, 100, 0, 1, 2, 1, 1, 0, 0, 9, 0] ++ List.replicate 20 0 ++ [0, 0, 240, 0, 0, 1, 0, 0] ++
      List.replicate 24 0) = some planA := by decide +kernel

/-- 09 R157: STS in ACTIVE with result OK, busy, and FAULT pending. -/
theorem test_readRegister :
    ({ inPart .active with port := { RegisterPort.reset with
        lastResult := .ok, inHand := some .stop, flags := { FlagSet.clear with fault := true } } } : State).readRegister
      0x08 = 0x00028012 := by decide

/-- 04 R79: row 239 raises the boundary. -/
theorem test_boundary :
    answers (exec (.rowOutput 640000)
        (withScan fun u => { u with mode := .frame, row := some 239, rowPhase := .background })) (fun t => t.scan.frameCount = 1 ∧ t.mail.commitBoundary = [1]) = true := by decide +kernel

/-- 01 R13: a write claim on the map after reset copies line 0 into line 1. -/
theorem test_writeClaim :
    answers (exec .writeClaim (engineAt (.writeClaim 5) (slotOf 1 (.fill 5)))) (fun t => t.engine.link = .writeAnswered 5 (.copy 1 0) ∧ t.map.pool.head? = some 2) = true := by decide +kernel

/-- 01 R19: a line given back with its mark notice still under way joins the free pool and is counted; the notice then
moves it to the damaged list. -/
theorem test_returnBeforeTheNotice :
    let s : State :=
      { withMap (engineAt .unwindClaim (slotOf 1 .none))
          fun m => { stagedMap 5 m with pool := m.pool.erase 5 } with
        store := { LineStore.reset 0 with marks := (List.replicate 384 false).set 5 true, markedCount := 1 }
        mail := { Mail.empty with markNotices := [5] } }
    answers (exec .unwindClaim s) (fun t => t.map.pool.getLast? = some 5 ∧ t.map.damaged = [] ∧
      t.engine.link = .unwindAnswered 1 1 ∧
      answers (exec .markNotice t) (fun v => 5 ∉ v.map.pool ∧ v.map.damaged = [5])) = true := by decide +kernel

/-- 05 R95, 07 R140: STOPPING ends with the flight notes clear, and not before. -/
theorem test_stoppingWaitsForTheFlightNotes :
    let s : State := withMode fun m => { m with part := .stopping, panel := .lit }
    answers (exec .stoppingComplete s) (fun t => t.mode.panel = .falling) = true ∧
      answers (exec .stoppingComplete (s.setLane 0 { s.lane 0 with flight := some ⟨7, true⟩ }))
        (fun t => t.mode.panel = .lit) = true := by decide +kernel

/-- 05 R97, R112: a request step whose record read ends after a stop notice takes its ticket and answers; the poll does
not begin, and the poll report goes out. -/
theorem test_requestAfterTheStopNotice :
    answers (exec (.laneRequestRead clean)
        (putBytes (laneAt (unitIn .running) (some (stoppedJob .recordRead)) []) [(140, 2), (141, 5)])) (fun t =>
      (t.lane 0).state = .draining ∧ (t.lane 0).lastTicket = some 5 ∧ t.lanes.agenda = [.writeState 0, .startPoll 0 0] ∧
      answers (exec (.laneRecordWrite clean) t) (fun v =>
        v.lanes.job = none ∧ v.mail.pollReports = [⟨false, true⟩])) = true := by decide +kernel

/-- 05 R97: a RESUME with a new ticket brings a HALTED lane to RUNNING. -/
theorem test_resume :
    answers (exec (.laneRequestRead clean)
        (putBytes (laneAt (unitIn .halted) (some (jobAt .recordRead)) []) [(140, 1), (141, 5)])) (fun t => (t.lane 0).state = .running ∧ t.lanes.agenda.head? = some (.writeState 0)) = true := by decide +kernel

/-- 08 R151: the entry written for a fault stamped in ACTIVE. -/
theorem test_faultEntry : faultEntryBytes stampedA = [0x21, 0, 0, 0, 0xFF, 0xFF, 0xFF, 0xFF, 0, 0, 0, 0, 0, 0, 0, 0] := by
  decide

/-- 09 R160: a soft reset keeps EXB. -/
theorem test_softReset :
    answers (exec (.reset none) { State.reset with port := { RegisterPort.reset with exb := 64 } }) (fun t => t.port.exb = 64 ∧ t.mode.part = .off) = true := by decide +kernel

/-! ## Every statement's hypotheses are met -/

theorem test_witness_StepRunsTheFrontCommand :
    ({ State.reset with pending := [.grant] } : State).pending = .grant :: [] ∧ State.reset.pending = [] := ⟨rfl, rfl⟩

theorem test_witness_RegisterReads :
    pinHeld.port.resetPin = true ∧ State.reset.port.resetPin = false ∧ (∀ f : Flag, f.position ≠ 9) ∧ 7 < 9 ∧ 9 ≠ 15 ∧
      0x0C < 0x10 := by
  refine ⟨rfl, rfl, ?_, by decide, by decide, by decide⟩
  intro f
  cases f <;> decide

theorem test_witness_RegisterWrites :
    State.reset.port.resetPin = false ∧ (0x001F0000 : Word).extractLsb' 0 4 = 0 ∧
      6 ≤ ((0x001F0006 : Word).extractLsb' 0 4).toNat ∧
      partCommandOf ((0x001F0001 : Word).extractLsb' 0 4) = some .start ∧ (5 : Word).extractLsb' 0 4 = 5 ∧
      pinHeld.port.resetPin = true := by decide

theorem test_witness_FlagSetRequestSetsItsFlag :
    Flag.lane ∈ (withMail fun m => { m with flagRequests := [.lane, .done] }).mail.flagRequests ∧
      Flag.fault ∉ (withMail fun m => { m with flagRequests := [.lane, .done] }).mail.flagRequests := by decide

theorem test_witness_InterruptLineFollowsFlagsAndEnables :
    State.reset.port.resetPin = false ∧
      (∃ t, Flag.done ∈ (withMail fun m => { m with flagRequests := [.done] }).mail.flagRequests ∧
        exec (.flagSetRequest .done) (withMail fun m => { m with flagRequests := [.done] }) = .next t) ∧
      (0x00080000 : Word).extractLsb' 0 4 = 0 ∧ (0x00080000 : Word).getLsbD (Flag.position .done) = true ∧
      6 ≤ ((0x00080007 : Word).extractLsb' 0 4).toNat ∧
      (∃ t, exec (.enableWrite 0x00080000) State.reset = .next t) ∧
      ({ FlagSet.clear with done := true } : FlagSet).get .done = true ∧
      (∃ t, exec (.reset none) State.reset = .next t) ∧ (∃ t, exec (.powerOnReset none) State.reset = .next t) ∧
      pinHeld.port.resetPin = true :=
  ⟨rfl, ⟨_, by decide, rfl⟩, by decide, by decide, by decide, ⟨_, rfl⟩, rfl, ⟨_, rfl⟩, ⟨_, rfl⟩, rfl⟩

theorem test_witness_CommandsGoThroughTheSlot :
    State.reset.port.resetPin = false ∧ State.reset.port.inHand = none ∧ (handed .stop .active).port.inHand = some .stop ∧
      (handed .stop .active).port.waiting = none ∧
      ({ RegisterPort.reset with inHand := some .stop, waiting := some .sleep } : RegisterPort).waiting = some .sleep ∧
      State.reset.mode.command ≠ .handed ∧
      (withMode fun m => { m with command := .answered .ok }).mode.command = .answered .ok ∧
      (∀ r, State.reset.mode.command ≠ .answered r) := by
  refine ⟨rfl, rfl, rfl, rfl, rfl, by decide, rfl, ?_⟩
  intro r h
  cases h

theorem test_witness_PartCommandsAreTaken : ∀ c : PartCommand,
    (handed c .sleep).mode.command = .handed ∧ (handed c .sleep).port.inHand = some c ∧
      (handed c .sleep).mode.endingsAwaited = false := fun _ => ⟨rfl, rfl, rfl⟩

theorem test_witness_PlanIsAcceptedExactlyWhen :
    planOf ([1, 0, 144, 1, 255, 16, 2, 2, 1, 0, 9, 0] ++ List.replicate 20 0 ++
      [0, 0, 1, 0, 3, 0, 0, 0] ++ [1, 0, 239, 0, 0, 7, 0, 0] ++ List.replicate 16 0) =
      some { format := 1, period := 400, holdThreshold := 255, holdDivider := 16, markMode := .every, background := 1,
             faultColour := 9, zones := [⟨0, 1, 3, false⟩, ⟨1, 239, 0, true⟩] } := by decide +kernel

theorem test_witness_PlanReadEndsStart :
    State.reset.mode.command ≠ .planRead ∧ (withMode fun m => { m with command := .planRead }).mode.command = .planRead :=
  ⟨by decide, rfl⟩

def ramping (p : Panel) (part : PartState) (stop fault : Bool) : State :=
  withMode fun m => { m with part := part, panel := p, rampEnd := 64, stopRecorded := stop, faultHeld := fault }

theorem test_witness_RampsEnd :
    ¬ (State.reset.mode.panel = .rising ∧ State.reset.mode.rampEnd ≤ max State.reset.now 0) ∧
      (∀ stop fault, (ramping .rising .waking stop fault).mode.panel = .rising ∧
        (ramping .rising .waking stop fault).mode.rampEnd ≤ max (ramping .rising .waking stop fault).now 64 ∧
        (ramping .rising .waking stop fault).mode.stopRecorded = stop ∧
        (ramping .rising .waking stop fault).mode.faultHeld = fault) ∧
      ¬ (State.reset.mode.panel = .falling ∧ State.reset.mode.rampEnd ≤ max State.reset.now 0) ∧
      (∀ part stop, (ramping .falling part stop false).mode.panel = .falling ∧
        (ramping .falling part stop false).mode.rampEnd ≤ max (ramping .falling part stop false).now 64 ∧
        (ramping .falling part stop false).mode.part = part ∧
        (ramping .falling part stop false).mode.stopRecorded = stop) := by
  refine ⟨by decide, fun _ _ => ⟨rfl, ?_, rfl, rfl⟩, by decide, fun _ _ => ⟨rfl, ?_, rfl, rfl⟩⟩
  · show (64 : Nat) ≤ max 0 64
    decide
  · show (64 : Nat) ≤ max 0 64
    decide

def evaluating (p : PartState) (sets idle : Nat) : State :=
  withMode fun m => { m with
    part := p, plan := some planA, idleCount := idle, pubReports := [⟨1, sets, false⟩], pollReports := [⟨false, false⟩] }

theorem test_witness_BoundaryIsEvaluated :
    State.reset.mode.pubReports = [] ∧
      (∀ p sets, (evaluating p sets 0).mode.pubReports = [⟨1, sets, false⟩] ∧
        (evaluating p sets 0).mode.pollReports = [⟨false, false⟩] ∧ (evaluating p sets 0).mode.part = p) ∧
      ((∃ p, (evaluating .active 0 254).mode.plan = some p ∧ p.holdThreshold ≠ 0 ∧ p.holdThreshold ≤ 255) ∧
        (evaluating .active 0 254).engine.state = .idle ∧ ∀ l, ((evaluating .active 0 254).lane l).intake = []) ∧
      ¬ (∃ p, (evaluating .active 2 0).mode.plan = some p ∧ p.holdThreshold ≠ 0 ∧ p.holdThreshold ≤ 0) ∧
      ((0 : Nat) = 0 ∧ (⟨false, false⟩ : PollReport).appended = false) ∧ ¬ ((2 : Nat) = 0) := by
  refine ⟨rfl, fun _ _ => ⟨rfl, rfl, rfl⟩, ⟨⟨planA, rfl, by decide, by decide⟩, rfl, by decide⟩, ?_, by decide, by decide⟩
  rintro ⟨p, _, h0, h1⟩
  exact h0 (by omega)

theorem test_witness_FaultReportsAct :
    (∃ n, (withMail fun m => { m with damageLimit := 1 }).mail.damageLimit = n + 1) ∧
      (∃ n, (withMail fun m => { m with recorderFailures := 1 }).mail.recorderFailures = n + 1) ∧
      State.reset.mail.damageLimit = 0 ∧ State.reset.mail.recorderFailures = 0 ∧
      (∃ t, exec (.stop .handedOver) (handed .stop .active) = .next t ∧ (handed .stop .active).mode.part ≠ .stopping ∧
        t.mode.part = .stopping) ∧
      (∃ t, exec .sleepStopEndingsDone (withMode fun m => { m with part := .sleep, endingsAwaited := true }) = .next t ∧
        t.mode.part = .off) :=
  ⟨⟨0, rfl⟩, ⟨0, rfl⟩, rfl, rfl, ⟨_, rfl, by decide, by decide⟩, ⟨_, rfl, by decide⟩⟩

theorem test_witness_ScanOrdersActByScanMode :
    (∀ o : ScanOrder, (withMail fun m => { m with scanOrders := [o] }).mail.scanOrders = o :: []) ∧
      (∀ o : ScanOrder, State.reset.mail.scanOrders.head? ≠ some o) ∧ (inPart .active).mode.plan = some planA ∧
      haltSent.mail.scanOrders = .haltScanning :: [] :=
  ⟨fun _ => rfl, nofun, rfl, rfl⟩

/-- 07 R137, R144: SLEEPING's halt order taken, the scan is STILL and the ramp down begins in the same step. -/
theorem test_haltScanning :
    answers (exec .haltScanning haltSent) (fun t =>
      t.scan.mode = .still ∧ t.mode.panel = .falling ∧ t.mode.rampEnd = 640000 ∧ t.mode.haltSent = false) = true := by
  decide +kernel

theorem test_witness_FrameStartsWhenDueAndPublished :
    (withMail fun m => { m with scanReports := [⟨1, 0, false⟩] }).mail.scanReports = ⟨1, 0, false⟩ :: [] ∧
      State.reset.mail.scanReports = [] := ⟨rfl, rfl⟩

def scanning (mode : ScanMode) (row : Nat) (p : RowPhase) : State :=
  withScan fun u => { u with mode := mode, row := some row, rowPhase := p }

theorem test_witness_RowIsOutput :
    (State.reset.scan.row = none ∧ (scanning .frame 3 (.lineRead 2)).scan.rowPhase = .lineRead 2) ∧
      max (scanning .frame 3 .background).now 0 <
        (scanning .frame 3 .background).scan.frameStart + (3 + 1) * (scanning .frame 3 .background).rowTime ∧
      (∀ (m : ScanMode) (row : Nat) (p : RowPhase), (scanning m row p).scan.row = some row ∧
        (scanning m row p).scan.mode = m ∧ (scanning m row p).scan.rowPhase = p) ∧
      (scanning .frame 238 .background).scan.frameStart + (238 + 1) * (scanning .frame 238 .background).rowTime ≤
        max (scanning .frame 238 .background).now 640000 ∧
      (∀ (m : ScanMode) (o : PanelOutput), (withScan fun u => { u with mode := m, output := o }).scan.mode = m ∧
        (withScan fun u => { u with mode := m, output := o }).scan.output = o) := by
  refine ⟨⟨rfl, rfl⟩, by decide +kernel, fun _ _ _ => ⟨rfl, rfl, rfl⟩, by decide +kernel, fun _ _ => ⟨rfl, rfl⟩⟩

theorem test_witness_BoundaryIsRaisedAfterRow239 :
    (scanning .frame 239 .background).scan.row = some 239 ∧ (scanning .frame 239 .background).scan.mode ≠ .still ∧
      (scanning .frame 239 .background).scan.frameStart + 240 * (scanning .frame 239 .background).rowTime ≤
        max (scanning .frame 239 .background).now 640000 ∧
      (scanning .frame 239 (.answered 4 (.damaged true))).scan.rowPhase = .answered 4 (.damaged true) ∧
      (scanning .frame 239 (.answered 4 (.values []))).scan.rowPhase = .answered 4 (.values []) :=
  ⟨rfl, by decide, by decide +kernel, rfl, rfl⟩

theorem test_witness_ReadyQueueIsJoinedAndTaken :
    ((engineAt .readyAppend (slotOf 1 .none)).engine.link = .readyAppend ∧
        (engineAt .readyAppend (slotOf 1 .none)).engine.slot = some (slotOf 1 .none)) ∧
      State.reset.engine.slot = none ∧ State.reset.mail.commitBoundary = [] ∧
      (withMail fun m => { m with commitBoundary := [4] }).mail.commitBoundary = 4 :: [] ∧
      State.reset.commit.inProgress = false ∧
      ((withCommit fun u => { u with ready := [readyEntry] }).commit.ready.filter
        fun e => e.condition == .waiting) ≠ [] :=
  ⟨⟨rfl, rfl⟩, rfl, rfl, rfl, rfl, by decide⟩

theorem test_witness_PublicationIsReported :
    ¬ (State.reset.commit.inProgress = true ∧ State.reset.commit.take = []) ∧
      (withCommit fun u => { u with inProgress := true }).commit.inProgress = true ∧
      (withCommit fun u => { u with inProgress := true }).commit.take = [] := ⟨by decide, rfl, rfl⟩

theorem test_witness_CommittedOutcomeIsWritten :
    State.reset.commit.outcomeWork ≠ .writing ∧
      (withCommit fun u => { u with outcomeWork := .writing, ready := [readyEntry] }).commit.outcomeWork = .writing ∧
      (withCommit fun u => { u with outcomeWork := .writing, ready := [readyEntry] }).commit.ready = readyEntry :: [] :=
  ⟨by decide, rfl, rfl⟩

theorem test_witness_LiveAndViewReadsNameTheLine :
    ((scanning .frame 3 .liveRead).scan.rowPhase = .liveRead ∧ (scanning .frame 3 .liveRead).scan.row = some 3) ∧
      State.reset.scan.row = none ∧
      ((engineAt (.viewRead 2) (slotOf 5 (.readback 2))).engine.link = .viewRead 2 ∧
        (engineAt (.viewRead 2) (slotOf 5 (.readback 2))).engine.slot = some (slotOf 5 (.readback 2))) ∧
      State.reset.engine.slot = none := ⟨⟨rfl, rfl⟩, rfl, ⟨rfl, rfl⟩, rfl⟩

def claiming : State := engineAt (.writeClaim 0) (slotOf 1 (.fill 0))

theorem test_witness_WriteClaimCopiesOnWrite :
    (claiming.engine.link = .writeClaim 0 ∧ claiming.engine.slot = some (slotOf 1 (.fill 0))) ∧
      ((withMap claiming (stagedMap 5)).map.ownLine ⟨0, 7⟩ 0 = some 5 ∧
        (withMap claiming (stagedMap 5)).map.liveOf 5 = 0 ∧ (withMap claiming (stagedMap 5)).map.stageOf 5 = 1) ∧
      claiming.map.ownLine ⟨0, 7⟩ 0 = none ∧
      (withMap claiming fun m => { m with pool := [] }).map.pool = [] ∧
      claiming.map.pool = 1 :: List.range' 2 382 ∧ claiming.map.Consistent ∧ claiming.map.staged 0 = none :=
  ⟨⟨rfl, rfl⟩, by decide +kernel, rfl, rfl, rfl, MapUnit.reset_consistent, rfl⟩

def holding (s : State) : State := { s with store := heldLine s.store }

theorem test_witness_AliasClaimStagesOneLine :
    let s := holding (engineAt .aliasClaim (slotOf 4 .none))
    (s.engine.link = .aliasClaim ∧ s.engine.slot = some (slotOf 4 .none) ∧ (slotOf 4 .none).op = some (opOf 4)) ∧
      s.readAnswer (s.map.view (slotOf 4 .none).setId (opOf 4).sourceRow) [(3, .uncorrectable)] = .damaged true ∧
      s.readAnswer (s.map.view (slotOf 4 .none).setId (opOf 4).sourceRow) [(3, .single)] =
        .values (List.replicate 320 5) ∧
      (opOf 4).top ≤ (opOf 4).bottom ∧ (opOf 4).bottom < 240 ∧ (opOf 4).sourceRow < 240 ∧ s.map.Consistent ∧
      (s.map.staged 0 = none ∧ s.map.staged 1 = none) :=
  ⟨⟨rfl, rfl, rfl⟩, by decide +kernel, by decide +kernel, by decide, by decide, by decide, MapUnit.reset_consistent,
    rfl, rfl⟩

theorem test_witness_ShiftClaimRotatesTheRange :
    let s := engineAt .shiftClaim (slotOf 3 .none)
    s.engine.link = .shiftClaim ∧ s.engine.slot = some (slotOf 3 .none) ∧ (slotOf 3 .none).op = some (opOf 3) ∧
      (opOf 3).top ≤ (opOf 3).bottom ∧ (opOf 3).bottom < 240 ∧ s.map.Consistent ∧
      (s.map.staged 0 = none ∧ s.map.staged 1 = none) :=
  ⟨rfl, rfl, rfl, by decide, by decide, MapUnit.reset_consistent, rfl, rfl⟩

theorem test_witness_UnwindClaimRemovesTheSet :
    let s := engineAt .unwindClaim (slotOf 1 .none)
    s.engine.link = .unwindClaim ∧ s.engine.slot = some (slotOf 1 .none) ∧ s.map.Consistent :=
  ⟨rfl, rfl, MapUnit.reset_consistent⟩

theorem test_witness_PublishClaimMakesTheSetLive :
    (withCommit fun u => { u with take := [⟨0, 7⟩] }).commit.take = ⟨0, 7⟩ :: [] ∧
      (withCommit fun u => { u with take := [⟨0, 7⟩] }).map.Consistent := ⟨rfl, MapUnit.reset_consistent⟩

theorem test_witness_LiveMapAndFrameCountChangeOnlyWhen :
    (∃ t, exec (.rowOutput 640000) (scanning .frame 239 .background) = .next t) ∧ rampingUp.ModeConsistent ∧
      rampingUp.mode.panel ≠ .lit ∧ ∃ t, exec (.rowOutput 640000) rampingUp = .next t ∧
      Instr.isReset (.rowOutput 640000) = false :=
  ⟨⟨_, rfl⟩, rampingUp_modeConsistent, by decide, _, rfl, rfl⟩

theorem test_witness_LineReadAnswersByDamage :
    (383 < 384) ∧ ({ LineStore.reset 0 with marks := List.replicate 384 true } : LineStore).marked 383 = true ∧
      (heldLine (.reset 0)).marked 0 = false ∧
      (∃ f ∈ ((heldLine (.reset 0)).line 0).flawsOf 0 ++ [(319, Flaw.uncorrectable)].filter fun f => f.1 < 320,
        f.2 = .uncorrectable) ∧
      (∀ f ∈ ((heldLine (.reset 0)).line 0).flawsOf 0 ++ [(319, Flaw.single)].filter fun f => f.1 < 320,
        f.2 = .single) ∧
      State.reset.mail.markNotices = [] ∧
      (withMail fun m => { m with markNotices := [3] }).mail.markNotices = 3 :: [] := by
  refine ⟨by decide, by decide +kernel, by decide +kernel, ⟨(319, .uncorrectable), by decide +kernel, rfl⟩,
    by decide +kernel, rfl, rfl⟩

theorem test_witness_LinesAreReadAndWritten :
    (engineAt (.copyRead 1 0 5) (slotOf 1 (.fill 1))).engine.link = .copyRead 1 0 5 ∧
      (engineAt (.rowRead 1 0) (slotOf 5 (.readback 1))).engine.link = .rowRead 1 0 ∧
      (scanning .frame 3 (.lineRead 0)).scan.rowPhase = .lineRead 0 ∧
      (engineAt (.copyWrite 5 []) (slotOf 1 (.fill 1))).engine.link = .copyWrite 5 [] ∧
      (engineAt (.spanWrite ⟨5, 0, [1]⟩ []) (slotOf 1 (.fill 1))).engine.link = .spanWrite ⟨5, 0, [1]⟩ [] :=
  ⟨rfl, rfl, rfl, rfl, rfl⟩

/-- The closing serial in the trailer at 1000h + 48 is that of the header, or is missing. -/
def trailerBytes : List Host.Cell := [(0x1030, 7)]

theorem test_witness_TrailerReadsCompareTheSerial :
    State.reset.engine.link ≠ .trailerStart ∧ State.reset.engine.link ≠ .trailerEnd ∧
      (engineAt .trailerStart (slotOf 1 .none)).engine.link = .trailerStart ∧
      (engineAt .trailerEnd (slotOf 1 .none)).engine.link = .trailerEnd ∧
      (doomed (slotOf 1 .none)).abortCause = some .stopped ∧ (slotOf 1 .none).abortCause = none ∧
      broken.error ≠ none ∧ clean.error = none ∧
      halfAt (Memory.readBytes [] (0x1000 + BitVec.ofNat 32 (32 + 16 * 1)) 16) 0 ≠ headerA.serial ∧
      halfAt (Memory.readBytes trailerBytes (0x1000 + BitVec.ofNat 32 (32 + 16 * 1)) 16) 0 = headerA.serial := by
  refine ⟨by decide, by decide, rfl, rfl, rfl, rfl, by decide, rfl, by decide +kernel, by decide +kernel⟩

/-- A FILL of rows 0 and 1, columns 0 to 3, in memory as op record 0 of the set at 1000h; and one of an unknown kind. -/
def fillBytes (kind : Byte) : List Host.Cell := [(0x1020, kind), (0x1024, 3), (0x1028, 1)]

theorem test_witness_OpRecordIsReadAndBegun :
    let record := fun kind => opRecordOf (Memory.readBytes (fillBytes kind) (0x1000 + BitVec.ofNat 32 (32 + 16 * 0)) 16)
    State.reset.engine.link ≠ .opRead ∧ (engineAt .opRead (slotOf 1 .none)).engine.link = .opRead ∧
      (engineAt .opRead (slotOf 1 .none)).engine.slot = some (slotOf 1 .none) ∧
      (doomed (slotOf 1 .none)).abortCause = some .stopped ∧ (slotOf 1 .none).abortCause = none ∧
      broken.error ≠ none ∧ clean.error = none ∧ (record 9).check (some planA) 0 = .error .badOp ∧
      (record 1).check (some planA) 0 = .ok .fill ∧ (record 1).check (some planA) 1 = .error .zoneViolation := by
  refine ⟨by decide, rfl, rfl, rfl, rfl, by decide, rfl, by decide +kernel, by decide +kernel, by decide +kernel⟩

theorem test_witness_RowsAreClaimedAndWritten :
    (∀ (k : EngineLink) (sl : Slot), (engineAt k sl).engine.slot = some sl ∧ (engineAt k sl).engine.link = k) ∧
      (slotOf 1 (.fill 0)).op = some (opOf 1) ∧ (doomed (slotOf 1 (.fill 0))).abortCause = some .stopped ∧
      (slotOf 1 (.fill 0)).abortCause = none ∧ (slotOf 1 (.fill 0)).progress = .fill 0 ∧
      (slotOf 2 (.blitClaim 0)).progress = .blitClaim 0 ∧ 0 < (opOf 2).bottom ∧ (opOf 2).bottom ≤ 1 ∧
      (slotOf 2 (.blitTransfer 1)).progress = .blitTransfer 1 := by
  refine ⟨fun _ _ => ⟨rfl, rfl⟩, rfl, rfl, rfl, rfl, rfl, by decide, by decide, rfl⟩

theorem test_witness_EngineActsOnAnswers :
    (∀ (k : EngineLink) (sl : Slot), (engineAt k sl).engine.slot = some sl ∧ (engineAt k sl).engine.link = k) ∧
      (slotOf 5 (.readback 0)).op = some (opOf 5) ∧ (1 = (opOf 4).sourceRow) :=
  ⟨fun _ _ => ⟨rfl, rfl⟩, rfl, by decide⟩

theorem test_witness_BlitOrientationPlacesEachValue :
    [5, 6].length = (opOf 2).height ∧ (opOf 2).arg.toNat ≤ 7 ∧ 3 < (opOf 2).width ∧ 1 < (opOf 2).height ∧
      [1, 2, 3, 4].length = (opOf 2).sourceWidth ∧ 1 < (opOf 2).sourceHeight := by decide

theorem test_witness_RowTransfersMoveTheData :
    (∀ (k : EngineLink) (sl : Slot), (engineAt k sl).engine.slot = some sl ∧ (engineAt k sl).engine.link = k) ∧
      (slotOf 2 (.blitTransfer 0)).op = some (opOf 2) ∧ (slotOf 2 (.blitTransfer 0)).abortCause = none ∧
      (doomed (slotOf 2 (.blitTransfer 0))).abortCause = some .stopped ∧ clean.error = none ∧ broken.error ≠ none ∧
      0 < (opOf 5).bottom ∧ (opOf 5).bottom ≤ 1 := by
  refine ⟨fun _ _ => ⟨rfl, rfl⟩, rfl, rfl, rfl, rfl, by decide, by decide, by decide⟩

theorem test_witness_AbortIsWrittenAndReported :
    let sl : Slot := { slotOf 1 .none with final := some figures }
    (engineAt (.unwindAnswered 1 1) sl).engine.slot = some sl ∧ sl.final = some figures ∧
      (engineAt (.unwindAnswered 1 1) sl).engine.link = .unwindAnswered 1 1 ∧
      (engineAt .outcomeWrite sl).engine.link = .outcomeWrite := ⟨rfl, rfl, rfl, rfl⟩

def starved (p : Progress) (lines : Nat) : State :=
  { withMail fun m => { m with releaseNotices := [lines] } with
    engine := { state := .starved, slot := some (slotOf 1 p), link := .quiet, completionsOwed := 0 } }

theorem test_witness_NoticesReachTheSetInFlight :
    State.reset.mail.releaseNotices = [] ∧
      (∀ p lines, (starved p lines).mail.releaseNotices = lines :: [] ∧ (starved p lines).engine.state = .starved ∧
        (starved p lines).engine.slot = some (slotOf 1 p) ∧ (slotOf 1 p).progress = p) ∧
      (State.reset.engine.state ≠ .starved ∧ State.reset.engine.slot = none) ∧ State.reset.mail.abortStop = false ∧
      (withMail fun m => { m with abortStop := true }).mail.abortStop = true ∧ State.reset.mail.abortLanes = [] ∧
      (withMail fun m => { m with abortLanes := [0] }).mail.abortLanes = 0 :: [] ∧ (slotOf 1 .none).lane = 0 :=
  ⟨rfl, fun _ _ => ⟨rfl, rfl, rfl, rfl⟩, ⟨by decide, rfl⟩, rfl, rfl, rfl, rfl, rfl⟩

theorem test_witness_ClassAndWeightAreReadAsGiven :
    (1 ≤ ({ LaneUnit.reset with weight := 15 } : LaneUnit).weight.toNat ∧
        ({ LaneUnit.reset with weight := 15 } : LaneUnit).weight.toNat ≤ 15) ∧
      LaneUnit.reset.weight.toNat = 0 ∧ 15 < ({ LaneUnit.reset with weight := 16 } : LaneUnit).weight.toNat := by decide

theorem test_witness_SelectionGoesByClassCreditAndRing :
    ¬ (State.reset.arbiter.requestWaiting = true ∧ State.reset.arbiter.grant = .none) ∧
      (∀ l, State.reset.candidate l = false) ∧
      (let s := selecting .reset .reset candidateUnit upperUnit;
        (s.arbiter.requestWaiting = true ∧ s.arbiter.grant = .none) ∧ s.candidate 1 = true ∧
          (s.lane 1).laneClass = .urgent ∧ s.candidate 0 = true ∧ (s.lane 0).laneClass ≠ .urgent) ∧
      (let s := selecting .reset creditLane candidateUnit candidateUnit;
        s.candidate 1 = true ∧ 0 < (s.arbiter.lanes.get 1).credit ∧
          ∀ k, s.candidate k = true → (s.lane k).laneClass ≠ .urgent ∧ (s.arbiter.lanes.get k).promoted = false) ∧
      (let s := selecting .reset .reset candidateUnit candidateUnit;
        s.candidate 0 = true ∧ ∀ k, s.candidate k = true → (s.arbiter.lanes.get k).credit = 0 ∧
          (s.lane k).laneClass ≠ .urgent ∧ (s.arbiter.lanes.get k).promoted = false ∧ (0 + 3 - 3) % 4 ≤ (k.val + 3 - 3) % 4) ∧
      State.reset.mail.eligible = [] ∧ (withMail fun m => { m with eligible := [2] }).mail.eligible = 2 :: [] ∧
      ({ GrantArbiter.reset with grant := .answered 1 true false } : GrantArbiter).grant = .answered 1 true false := by
  refine ⟨by decide, by decide, by decide, by decide, by decide, rfl, rfl, rfl⟩

theorem test_witness_GrantIsTakenOrRefused :
    let s : State :=
      { laneAt candidateUnit none [] with arbiter := { GrantArbiter.reset with grant := .sent 0 true } }
    let r : State := { s with arbiter := { s.arbiter with grant := .sent 1 true } }
    (s.arbiter.grant = .sent 0 true ∧ s.lanes.agenda = [] ∧ s.engine.state = .idle ∧ s.candidate 0 = true ∧
        (s.lane 0).intake = entryOf .ordinary :: []) ∧
      (r.arbiter.grant = .sent 1 true ∧ r.candidate 1 = false) ∧
      (∀ l spends, State.reset.arbiter.grant ≠ .sent l spends) ∧
      ({ GrantArbiter.reset with grant := .answered 1 true true } : GrantArbiter).grant = .answered 1 true true := by
  refine ⟨⟨rfl, rfl, rfl, by decide, rfl⟩, ⟨rfl, by decide⟩, ?_, rfl⟩
  intro l b h
  cases h

theorem test_witness_BoundaryAgesTheCandidates :
    State.reset.mail.arbiterBoundary = [] ∧
      (withMail fun m => { m with arbiterBoundary := [1] }).mail.arbiterBoundary = 1 :: [] ∧
      State.reset.mode.part ≠ .active ∧ State.reset.mode.part ≠ .hold := ⟨rfl, rfl, by decide, by decide⟩

def asking (f : FaultRecorder → FaultRecorder) : State :=
  { recording f with mail := { Mail.empty with faultRequests := [(.engine, faultOf 1), (.scanUnit, faultOf 0)] } }

theorem test_witness_FaultRequestIsStampedAndQueued :
    (∀ r, (FaultSender.scanUnit, r) ∉ State.reset.mail.faultRequests) ∧
      ((asking id).mail.faultRequests = [(.engine, faultOf 1)] ++ (.scanUnit, faultOf 0) :: [] ∧
        ∀ r', (FaultSender.scanUnit, r') ∉ [(FaultSender.engine, faultOf 1)]) ∧
      8 ≤ (asking fun u => { u with queue := List.replicate 8 stampedA }).recorder.queue.length ∧
      (asking fun u => { u with queue := List.replicate 7 stampedA }).recorder.queue.length < 8 ∧
      (asking fun u => { u with inHand := some stampedA }).recorder.inHand = some stampedA ∧
      ((asking id).recorder.inHand = none ∧ (asking id).recorder.tableFull = false ∧
        (asking id).recorder.queue ++ [stampedA] = stampedA :: []) ∧
      (asking fun u => { u with tableFull := true }).recorder.tableFull = true := by
  refine ⟨?_, ⟨rfl, ?_⟩, by decide, by decide, rfl, ⟨rfl, rfl, rfl⟩, rfl⟩
  · intro r h
    cases h
  · intro r h
    simp at h

theorem test_witness_FaultEntryIsSearchedAndWritten :
    (recording fun u => { u with inHand := some stampedA, work := .searching 64 0 15 }).recorder.work =
        .searching 64 0 15 ∧
      Memory.read [] (64 + BitVec.ofNat 32 (192 + 16 * 0) : Word).toNat = 0 ∧
      Memory.read [(256, 1)] (64 + BitVec.ofNat 32 (192 + 16 * 0) : Word).toNat ≠ 0 ∧ 14 + 1 < 16 ∧ 16 ≤ 15 + 1 ∧
      ((recording fun u => { u with inHand := some stampedA, work := .writing 64 0 }).recorder.work = .writing 64 0 ∧
        (recording fun u => { u with inHand := some stampedA, work := .writing 64 0 }).recorder.inHand =
          some stampedA ∧
        (recording fun u => { u with inHand := some stampedA, work := .writing 64 0 }).recorder.tableFull = false) ∧
      (let s := recording fun u => { u with inHand := some stampedA, work := .writing 64 0, tableFull := true };
        s.recorder.work = .writing 64 0 ∧ s.recorder.inHand = some stampedA ∧ s.recorder.tableFull = true) ∧
      State.reset.mail.overflowClears = 0 ∧
      (withMail fun m => { m with overflowClears := 1 }).mail.overflowClears = 0 + 1 ∧ clean.error = none ∧
      broken.error ≠ none := by
  refine ⟨rfl, rfl, by decide, by decide, by decide, ⟨rfl, rfl, rfl⟩, ⟨rfl, rfl, rfl⟩, rfl, rfl, rfl, by decide⟩

theorem test_witness_LanesAreSetUpAtStart :
    State.reset.lanes.setup = none ∧
      (({ LaneService.reset with setup := some 3 } : LaneService).setup = some 3 ∧ LaneService.reset.agenda = []) ∧
      (laneAt (unitIn .off) none [.writeAnchorZero 3, .nextSetup 3]).lanes.agenda = [.writeAnchorZero 3, .nextSetup 3] ∧
      (laneAt (unitIn .off) none [.writeAnchorZero 3, .nextSetup 3]).lanes.job = none ∧ clean.error = none ∧
      broken.error ≠ none := by
  refine ⟨rfl, ⟨rfl, rfl⟩, rfl, rfl, rfl, by decide⟩

theorem test_witness_LanesAreServedInOrder :
    (let s := withMail fun m => { m with laneBoundary := [1] };
      s.mail.laneBoundary = 1 :: [] ∧ s.lanes.job = none ∧ s.lanes.agenda = [] ∧ s.lanes.setup = none) ∧
      State.reset.mail.laneBoundary = [] ∧
      (withMail fun m => { m with pollReports := [⟨true, false⟩] }).mail.pollReports = ⟨true, false⟩ :: [] ∧
      State.reset.mail.pollReports = [] ∧
      (∀ u, let s := laneAt u (some (jobAt .recordRead)) [];
        s.lanes.job = some (jobAt .recordRead) ∧ s.lanes.agenda = [] ∧ s.lane (jobAt .recordRead).lane = u) ∧
      ((jobAt .recordRead).phase = .recordRead ∧ (jobAt .recordRead).stopNoted = false) ∧
      ((laneAt (unitIn .running) (some (stoppedJob .recordRead)) []).lanes.job = some (stoppedJob .recordRead) ∧
        (stoppedJob .recordRead).phase = .recordRead ∧ (stoppedJob .recordRead).stopNoted = true) ∧
      (unitIn .draining).state = .draining ∧ (broken.error ≠ none ∧ (unitIn .halted).state ≠ .running) ∧
      (unitIn .running).lastTicket =
        some (byteAt (Memory.readBytes [] (64 + BitVec.ofNat 32 (64 + 32 * 0)) 32) 13) ∧
      2 ≤ [entryOf .dropped, entryOf .ordinary].length ∧ (unitIn .running).intake.length < 2 ∧
      (unitIn .running).anchor = none ∧ ({ unitIn .running with anchor := some 16 } : LaneUnit).anchor ≠ none ∧
      wordAt (Memory.readBytes [] (64 + BitVec.ofNat 32 (64 + 32 * 0)) 32) 0 = 0 ∧
      wordAt (Memory.readBytes [(128, 16)] (64 + BitVec.ofNat 32 (64 + 32 * 0)) 32) 0 = 16 := by
  refine ⟨⟨rfl, rfl, rfl, rfl⟩, rfl, rfl, rfl, fun _ => ⟨rfl, rfl, rfl⟩, ⟨rfl, rfl⟩, ⟨rfl, rfl, rfl⟩, rfl,
    ⟨by decide, by decide⟩, by decide +kernel, by decide, by decide, rfl, by decide, by decide +kernel,
    by decide +kernel⟩

/-- A lane record with a request code and the new ticket 9. -/
def requestBytes (code : Byte) : List Host.Cell := [(140, code), (141, 9)]

theorem test_witness_LaneRequestsAreTaken :
    let bs := fun code => Memory.readBytes (requestBytes code) (64 + BitVec.ofNat 32 (64 + 32 * 0)) 32
    (∀ u, (laneAt u (some (jobAt .recordRead)) []).lanes.job = some (jobAt .recordRead)) ∧
      (∀ st, (unitIn st).state = st ∧ (unitIn st).lastTicket ≠ some 9) ∧
      ((byteAt (bs 1) 13, byteAt (bs 1) 12) = (9, 1) ∧ (byteAt (bs 2) 12, byteAt (bs 3) 12) = (2, 3) ∧
        byteAt (Memory.readBytes [(141, 9)] (64 + BitVec.ofNat 32 (64 + 32 * 0)) 32) 12 = 0 ∧
        4 ≤ (byteAt (bs 4) 12).toNat) := by
  refine ⟨fun _ => rfl, fun st => ⟨rfl, ?_⟩, by decide +kernel⟩
  intro h
  cases h

def runningUnit : LaneUnit := { unitIn .running with anchor := some 0x100, expected := some 5 }

theorem test_witness_FaultsHaltTheLane :
    (∀ u p, let s := laneAt u (some (jobAt p)) [];
      s.lanes.job = some (jobAt p) ∧ s.lanes.agenda = [] ∧ s.lane 0 = u ∧ (jobAt p).phase = p) ∧
      runningUnit.state = .running ∧ broken.error ≠ none ∧ clean.error = none ∧
      ((unitIn .running).lastTicket =
          some (byteAt (Memory.readBytes [(128, 5)] (64 + BitVec.ofNat 32 (64 + 32 * 0)) 32) 13) ∧
        wordAt (Memory.readBytes [(128, 5)] (64 + BitVec.ofNat 32 (64 + 32 * 0)) 32) 0 = 5) ∧
      wordAt (Memory.readBytes [(0x100, 5)] 0x100 4) 0 = 5 ∧ (5 : Word).toNat % 16 ≠ 0 ∧
      (runningUnit.expected ≠ none ∧ runningUnit.expected ≠ some (halfAt (Memory.readBytes [] 0x200 32) 4)) ∧
      (∀ st, let s := laneAt { unitIn st with intake := [entryOf .dropped] } none [.writeEntryOutcome 0, .removeEntry 0];
        s.lanes.agenda = .writeEntryOutcome 0 :: [.removeEntry 0] ∧
          (∃ a bs, s.outstandingWrite .laneService = some (a, bs)) ∧ (s.lane 0).intake = entryOf .dropped :: [] ∧
          (s.lane 0).state = st) ∧
      (∀ (w : LaneTask), w = .writeState 0 ∨ w = .writeAnchor 0 ∨ w = .writeReleased 0 7 0x1000 →
        ∃ a bs, (laneAt runningUnit none [w]).outstandingWrite .laneService = some (a, bs)) := by
  refine ⟨fun _ _ => ⟨rfl, rfl, rfl, rfl⟩, rfl, by decide, rfl, by decide +kernel, by decide +kernel, by decide,
    by decide +kernel, fun _ => ⟨rfl, ⟨_, _, rfl⟩, rfl, rfl⟩, ?_⟩
  rintro w (rfl | rfl | rfl)
  · exact ⟨_, _, rfl⟩
  · exact ⟨_, _, rfl⟩
  · exact ⟨_, _, rfl⟩

theorem test_witness_ChainIsFollowedAndSetsFetched :
    (∀ u p, let s := laneAt u (some (jobAt p)) [];
      s.lanes.job = some (jobAt p) ∧ s.lanes.agenda = [] ∧ (jobAt p).phase = p ∧ (jobAt p).stopNoted = false) ∧
      (∀ p, let s := laneAt runningUnit (some (stoppedJob p)) [];
        s.lanes.job = some (stoppedJob p) ∧ s.lanes.agenda = [] ∧ (stoppedJob p).phase = p ∧
          (stoppedJob p).stopNoted = true) ∧
      (jobAt .ended).phase ≠ .linkRead ∧ (∀ link, (jobAt .ended).phase ≠ .headerRead link) ∧
      wordAt (Memory.readBytes [] (runningUnit.anchor.getD 0) 4) 0 = 0 ∧
      wordAt (Memory.readBytes [(0x100, 32)] (runningUnit.anchor.getD 0) 4) 0 = 32 ∧ (32 : Word).toNat % 16 = 0 ∧
      (unitIn .running).expected = none ∧
      runningUnit.expected = some (halfAt (Memory.readBytes [(0x204, 5)] 0x200 32) 4) := by
  refine ⟨fun _ _ => ⟨rfl, rfl, rfl, rfl⟩, fun _ => ⟨rfl, rfl, rfl, rfl⟩, by decide, ?_, by decide +kernel, by decide +kernel, by decide, rfl,
    by decide +kernel⟩
  intro link h
  cases h

theorem test_witness_LaneWritesAndStepsFollow :
    (∀ (w : LaneTask) u, (laneAt u none [w]).lanes.agenda = w :: []) ∧ clean.error = none ∧
      State.reset.lanes.agenda = [] ∧ LaneTask.isWrite (.writeState 0) = true ∧
      ({ unitIn .running with intake := [entryOf .stopped] } : LaneUnit).intake = entryOf .stopped :: [] ∧
      ({ unitIn .running with flight := some ⟨7, true⟩ } : LaneUnit).flight = some ⟨7, true⟩ ∧
      ((unitIn .running).flight = none ∧ (entryOf .stopped).mark ≠ .ordinary ∧ (unitIn .running).intake = []) ∧
      (∀ st, ((laneAt (unitIn st) none []).lane 0).state = st) ∧
      ((∀ j, (laneAt (unitIn .running) (some (jobAt .ended)) []).lanes.job = some j → j.lane ≠ 0 ∨ j.phase ≠ .acting) ∧
        (jobAt .acting).phase = .acting ∧ (jobAt .acting).lane = 0 ∧ (jobAt .acting).stopNoted = false ∧
        (stoppedJob .acting).stopNoted = true) ∧
      ((unitIn .running).intake.length < 2 ∧ 2 ≤ [entryOf .dropped, entryOf .ordinary].length ∧
        runningUnit.anchor ≠ none ∧ (unitIn .running).anchor = none ∧ (0x20 : Word) ≠ 0 ∧
        (0x20 : Word).toNat % 16 = 0 ∧ (0x21 : Word).toNat % 16 ≠ 0) ∧
      ((∀ j, State.reset.lanes.job = some j → j.phase ≠ .ended) ∧ (jobAt .ended).phase = .ended ∧
        (jobAt .ended).lane ≠ 3 ∧ ({ jobAt .ended with lane := 3 } : BoundaryJob).lane = 3) := by
  refine ⟨fun _ _ => rfl, rfl, rfl, rfl, rfl, rfl, ⟨rfl, by decide, rfl⟩, fun _ => rfl,
    ⟨?_, rfl, rfl, rfl, rfl⟩, ⟨by decide, by decide, by decide, rfl, by decide, by decide, by decide⟩,
    nofun, rfl, by decide, rfl⟩
  rintro j ⟨rfl⟩
  exact .inr (by decide)

def endReportA : EndReport := { lane := 0, address := 0x1000, serial := 7, outcome := .torn, written := false }

theorem test_witness_EndsCompletionsAndStopsAreTaken :
    State.reset.lanes.agenda = [] ∧
      (withMail fun m => { m with engineReports := [.ended endReportA] }).mail.engineReports = .ended endReportA :: [] ∧
      (withMail fun m => { m with commitReport := some endReportA }).mail.commitReport = some endReportA ∧
      (withMail fun m => { m with engineReports := [.completion 2] }).mail.engineReports = .completion 2 :: [] ∧
      ({ unitIn .draining with abortsOutstanding := 1 } : LaneUnit).abortsOutstanding ≤ 1 ∧
      (unitIn .draining).state = .draining ∧
      (({ unitIn .running with abortsOutstanding := 2 } : LaneUnit).abortsOutstanding ≤ 1 →
        (unitIn .running).state ≠ .draining) ∧
      ((withMail fun m => { m with stopNotice := true }).mail.stopNotice = true ∧ State.reset.lanes.job = none) ∧
      (laneAt (unitIn .running) (some (jobAt .linkRead)) []).lanes.job = some (jobAt .linkRead) ∧
      State.reset.mail.stopNotice = false ∧
      (∀ r, State.reset.mail.engineReports.head? ≠ some (.ended r)) ∧ State.reset.mail.commitReport = none := by
  refine ⟨rfl, rfl, rfl, rfl, by decide, rfl, by decide, ⟨rfl, rfl⟩, rfl, rfl, ?_, rfl⟩
  intro r h
  cases h

def writingState : State := laneAt runningUnit none [.writeState 0]

theorem test_witness_ResetsRestoreTheResetValues :
    State.reset.outstandingWrite .engine = none ∧ (∃ a bs, writingState.outstandingWrite .laneService = some (a, bs)) ∧
      clean.error = none ∧ broken.error = some [0] ∧ State.reset.port.resetPin = false :=
  ⟨rfl, ⟨_, _, rfl⟩, rfl, rfl, rfl⟩

theorem test_witness_StepKeepsTheStoresSound :
    step State.reset = .next State.reset ∧ Memory.wf State.reset.mem = true ∧ State.reset.map.Consistent ∧
      State.reset.store.Consistent := ⟨rfl, rfl, MapUnit.reset_consistent, LineStore.reset_consistent 0⟩

/-- The premise on the part state, of a state a START has brought to STARTING with the ramp up. -/
theorem test_witness_StepKeepsThePartStateConsistent :
    rampingUp.ModeConsistent ∧ step rampingUp = .next rampingUp ∧ haltSent.ModeConsistent ∧
      step haltSent = .next haltSent :=
  ⟨rampingUp_modeConsistent, rfl,
    ⟨by decide, by decide, by decide, by decide, by decide, fun _ => ⟨rfl, rfl, [], rfl, by decide⟩, nofun, by decide,
      by decide, by decide, by decide, by decide⟩, rfl⟩

/-- Lane 0 with a set in the engine, one in its intake queue, and the next being fetched. -/
def inFlight : State :=
  { laneAt { runningUnit with intake := [entryOf .ordinary], flight := some ⟨7, true⟩ } (some (jobAt .linkRead)) [] with
    engine := { state := .applying, slot := some (slotOf 1 .none), link := .trailerStart, completionsOwed := 0 } }

theorem test_witness_StepKeepsWithinCapacity :
    inFlight.WithinCapacity ∧ inFlight.FlightConsistent ∧ step inFlight = .next inFlight :=
  ⟨⟨by decide, by decide, by decide, by decide, by decide, by decide, by decide, by decide, by decide, by decide⟩,
    ⟨by decide, fun l => (show inFlight.setsInFlight l = 0 ∨ (inFlight.lane l).flight ≠ none by
        revert l; decide).imp_right Or.inl, nofun, nofun, nofun⟩, rfl⟩

/-- The Commit Unit's end report of a lane's set, and the report taken. -/
theorem test_witness_FlightConsistent_reports :
    let u : LaneUnit := { unitIn .running with flight := some ⟨7, true⟩ }
    let c : CommitUnit := { CommitUnit.reset with outcomeWork := .reported, ready := [readyEntry] }
    ({ laneAt u none [] with commit := c, mail := { Mail.empty with commitReport := some endReportA } }
        : State).FlightConsistent ∧
      ({ laneAt u none [.clearFlight 0, .endEntries 0, .reportTaken] with commit := c } : State).FlightConsistent := by
  refine ⟨⟨by decide, fun l => ?_, nofun, ?_, nofun⟩, ⟨by decide, fun l => ?_, fun l h => ?_, nofun, fun _ => ?_⟩⟩
  · refine Or.imp_right Or.inl ?_
    revert l
    decide
  · rintro r ⟨rfl⟩
    exact ⟨rfl, by decide, rfl⟩
  · refine Or.imp_right Or.inl ?_
    revert l
    decide
  · obtain rfl : l = 0 := by revert l; decide
    exact .inr ⟨by decide, rfl⟩
  · exact ⟨rfl, rfl, by decide, by decide⟩

theorem test_witness_PartStateChangesAsChapter7Gives :
    (handed .stop .off).ModeConsistent ∧ ∃ t, exec (.stop .handedOver) (handed .stop .off) = .next t :=
  ⟨⟨by decide, by decide, by decide, by decide, by decide, nofun, by decide, by decide, by decide, by decide, by decide,
    by decide⟩, _, rfl⟩

theorem test_witness_MemoryChangesOnlyByBusWrites :
    Memory.wf State.reset.mem = true ∧ Memory.wf writingState.mem = true ∧
      (Instr.transfer .grant = none ∧ ∃ t, exec .grant State.reset = .next t) ∧
      (Instr.transfer (.laneRecordWrite clean) = some clean ∧ clean.host = [] ∧ clean.error = none) ∧
      State.reset.storeOf (.laneRecordWrite clean) = none ∧
      (∃ a bs, writingState.storeOf (.laneRecordWrite clean) = some (a, bs) ∧ bs.length ≤ 640 ∧ bs[1]? = some 0 ∧
        (∀ i, i < bs.length → (0 : Word) ≠ a + BitVec.ofNat 32 i)) ∧
      (Instr.isReset (.reset none) = true ∧ State.reset.port.resetPin = false) := by
  refine ⟨rfl, rfl, ⟨rfl, _, rfl⟩, ⟨rfl, rfl, rfl⟩, rfl, ⟨_, _, rfl, by decide, rfl, by decide⟩, rfl, rfl⟩

end Sys2Proof.Tests
end

section
/-! SUPPORT. What the commands that neither claim, read nor write lines leave alone: the Map Unit, the Line Store, the
frame count, and the canonical form of system memory. One lemma for each shared operation and for each command. -/

namespace Sys2Proof.Machine

/-- `t` has the map, the line store and the frame count of `s`, and its memory is in canonical form if that of `s` is. -/
structure State.Spares (s t : State) : Prop where
  map        : t.map = s.map
  store      : t.store = s.store
  frameCount : t.scan.frameCount = s.scan.frameCount
  mem        : Memory.wf s.mem = true → Memory.wf t.mem = true

/-- The command answers with a state that spares the stores of `s`. -/
def State.SparedBy (s : State) (r : Result) : Prop := ∃ t, r = .next t ∧ s.Spares t

theorem State.Spares.refl (s : State) : s.Spares s := ⟨rfl, rfl, rfl, id⟩

theorem State.Spares.trans {s t u : State} (h : s.Spares t) (h' : t.Spares u) : s.Spares u :=
  ⟨h'.map.trans h.map, h'.store.trans h.store, h'.frameCount.trans h.frameCount, h'.mem ∘ h.mem⟩

theorem spares_ite {s a b : State} {p : Prop} [Decidable p] (ha : s.Spares a) (hb : s.Spares b) :
    s.Spares (if p then a else b) := by split <;> assumption

/-- The same, from the last operation back: what came before it is then known. -/
theorem State.Spares.after {s t u : State} (h' : t.Spares u) (h : s.Spares t) : s.Spares u := h.trans h'

/-- A command whose answer is a state that spares the stores. -/
theorem State.Spares.sparedBy {s t : State} (h : s.Spares t) : s.SparedBy (.next t) := ⟨t, rfl, h⟩

theorem State.SparedBy.spares {s t : State} {r : Result} (h : s.SparedBy r) (e : r = .next t) : s.Spares t := by
  obtain ⟨_, rfl, h⟩ := h
  cases e
  exact h

variable (s : State)

/-! ## Memory and messages -/

theorem spares_busRead (bus : BusEvent) : s.Spares (s.busRead bus) := ⟨rfl, rfl, rfl, s.wf_busRead bus⟩
theorem spares_busWrite (bus : BusEvent) (a : Word) (bs : List Byte) : s.Spares (s.busWrite bus a bs) :=
  ⟨rfl, rfl, rfl, s.wf_busWrite bus a bs⟩
theorem spares_askFlag (f : Flag) : s.Spares (s.askFlag f) := ⟨rfl, rfl, rfl, id⟩
theorem spares_askFault (x : FaultSender) (r : FaultRequest) : s.Spares (s.askFault x r) := ⟨rfl, rfl, rfl, id⟩
theorem spares_setMode (m : ModeController) : s.Spares (s.setMode m) := ⟨rfl, rfl, rfl, id⟩
theorem spares_setLane (l : Lane) (u : LaneUnit) : s.Spares (s.setLane l u) := ⟨rfl, rfl, rfl, id⟩
theorem spares_setAgenda (ts : List LaneTask) : s.Spares (s.setAgenda ts) := ⟨rfl, rfl, rfl, id⟩
theorem spares_setPhase (p : PollPhase) : s.Spares (s.setPhase p) := ⟨rfl, rfl, rfl, id⟩
theorem spares_setLink (k : EngineLink) : s.Spares (s.setLink k) := ⟨rfl, rfl, rfl, id⟩
theorem spares_setSlot (sl : Slot) (k : EngineLink) : s.Spares (s.setSlot sl k) := ⟨rfl, rfl, rfl, id⟩

theorem spares_completeBegun (begun : Begun) : s.Spares (s.completeBegun begun) := by
  unfold State.completeBegun
  split
  · exact .refl s
  · split
    · exact .refl s
    · exact spares_busWrite s _ _ _

/-! ## The Apply Engine -/

theorem spares_abortSet (sl : Slot) (unwind : Bool) (o : SetOutcome) (i : Option Nat) :
    s.Spares (s.abortSet sl unwind o i) := ⟨rfl, rfl, rfl, id⟩

theorem spares_opDone (sl : Slot) : s.Spares (s.opDone sl) := ⟨rfl, rfl, rfl, id⟩

theorem spares_beginOp (sl : Slot) (op : OpRecord) (k : OpKind) : s.Spares (s.beginOp sl op k) := by
  cases k <;> exact ⟨rfl, rfl, rfl, id⟩

theorem spares_lineNamed (sl : Slot) (op : OpRecord) (line : Nat) : s.Spares (s.lineNamed sl op line) := by
  unfold State.lineNamed
  split
  · exact spares_setSlot s _ _
  · exact spares_ite (spares_setSlot s _ _) (spares_setSlot s _ _)
  all_goals exact .refl s

theorem spares_spansDone (sl : Slot) (op : OpRecord) : s.Spares (s.spansDone sl op) := by
  unfold State.spansDone
  split
  · exact spares_ite (spares_setSlot s _ _) (spares_opDone s _)
  · exact spares_ite (spares_setSlot s _ _) (spares_opDone s _)
  all_goals exact .refl s

theorem spares_damageMet (sl : Slot) (line row : Nat) (newly : Bool) : s.Spares (s.damageMet sl line row newly) := by
  have h : s.Spares (if newly then s.askFault .engine (lineDamagedRequest sl line row) else s) :=
    spares_ite (spares_askFault s _ _) (.refl s)
  unfold State.damageMet
  dsimp only
  split
  all_goals exact h.trans (spares_abortSet _ _ _ _ _)

theorem spares_requestAbort (sl : Slot) (c : AbortCause) : s.Spares (s.requestAbort sl c) :=
  spares_ite (.refl s) (spares_ite (spares_abortSet s _ _ _ _) ⟨rfl, rfl, rfl, id⟩)

theorem spares_execTrailerReadStart (bus : BusEvent) : s.SparedBy (execTrailerReadStart bus s) := by
  refine State.Spares.sparedBy ?_
  have h := spares_busRead s bus
  split
  · dsimp only
    split
    · exact h.trans (spares_abortSet _ _ _ _ _)
    · exact h.trans (spares_abortSet _ _ _ _ _)
    · exact spares_ite (h.trans (spares_setSlot _ _ _)) (h.trans (spares_abortSet _ _ _ _ _))
  · exact .refl s

theorem spares_execOpRecordRead (bus : BusEvent) : s.SparedBy (execOpRecordRead bus s) := by
  refine State.Spares.sparedBy ?_
  have h := spares_busRead s bus
  split
  · dsimp only
    split
    · exact h.trans (spares_abortSet _ _ _ _ _)
    · exact h.trans (spares_abortSet _ _ _ _ _)
    · split
      · exact h.trans (spares_abortSet _ _ _ _ _)
      · exact h.trans (spares_beginOp _ _ _ _)
  · exact .refl s

theorem spares_execWriteClaimAnswer : s.SparedBy (execWriteClaimAnswer s) := by
  refine State.Spares.sparedBy ?_
  split
  · split
    · exact spares_abortSet s _ _ _ _
    · exact .refl s
    · exact spares_lineNamed s _ _ _
    · exact spares_setLink s _
    · exact ⟨rfl, rfl, rfl, id⟩
  · exact .refl s

theorem spares_execEngineLineReadAnswer : s.SparedBy (execEngineLineReadAnswer s) := by
  refine State.Spares.sparedBy ?_
  split
  · split
    · exact spares_damageMet s _ _ _ _
    · exact spares_abortSet s _ _ _ _
    · exact spares_setLink s _
  · split
    · exact spares_damageMet s _ _ _ _
    · exact spares_abortSet s _ _ _ _
    · exact spares_setLink s _
    · exact .refl s
  · exact .refl s

theorem spares_execEngineLineWriteDone : s.SparedBy (execEngineLineWriteDone s) := by
  refine State.Spares.sparedBy ?_
  split
  · split
    · exact spares_abortSet s _ _ _ _
    · exact spares_lineNamed s _ _ _
    · exact .refl s
  · split
    · exact spares_abortSet s _ _ _ _
    · exact spares_setLink s _
    · exact spares_spansDone s _ _
    · exact .refl s
  · exact .refl s

theorem spares_execAliasClaimAnswer : s.SparedBy (execAliasClaimAnswer s) := by
  refine State.Spares.sparedBy ?_
  split
  · split
    · exact spares_damageMet s _ _ _ _
    · exact spares_abortSet s _ _ _ _
    · exact spares_opDone s _
    · exact .refl s
  · exact .refl s

theorem spares_execShiftClaimAnswer : s.SparedBy (execShiftClaimAnswer s) := by
  refine State.Spares.sparedBy ?_
  split
  · split
    · exact spares_abortSet s _ _ _ _
    · exact spares_opDone s _
  · exact .refl s

theorem spares_execViewReadAnswer : s.SparedBy (execViewReadAnswer s) := by
  refine State.Spares.sparedBy ?_
  split
  · split
    · exact spares_abortSet s _ _ _ _
    · exact spares_setLink s _
  · exact .refl s

theorem spares_execSourceRowRead (bus : BusEvent) : s.SparedBy (execSourceRowRead bus s) := by
  refine State.Spares.sparedBy ?_
  have h := spares_busRead s bus
  split
  · split
    · exact .refl s
    · dsimp only
      split
      · exact h.trans (spares_abortSet _ _ _ _ _)
      · exact h.trans (spares_abortSet _ _ _ _ _)
      · split
        · exact h.trans (spares_setLink _ _)
        · exact h
  · exact .refl s

theorem spares_execReadbackRowWrite (bus : BusEvent) : s.SparedBy (execReadbackRowWrite bus s) := by
  refine State.Spares.sparedBy ?_
  split
  · split
    · exact .refl s
    · rename_i row bytes _ _ _ _ op _
      have h := spares_busWrite s bus (op.readbackAddress row) bytes
      dsimp only
      split
      · exact h.trans (spares_abortSet _ _ _ _ _)
      · exact spares_ite (h.trans (spares_abortSet _ _ _ _ _))
          (spares_ite (h.trans (spares_setSlot _ _ _)) (h.trans (spares_opDone _ _)))
  · exact .refl s

theorem spares_execTrailerReadEnd (bus : BusEvent) : s.SparedBy (execTrailerReadEnd bus s) := by
  refine State.Spares.sparedBy ?_
  have h := spares_busRead s bus
  split
  · dsimp only
    split
    · exact h.trans (spares_abortSet _ _ _ _ _)
    · exact h.trans (spares_abortSet _ _ _ _ _)
    · exact spares_ite (h.trans (spares_setLink _ _)) (h.trans (spares_abortSet _ _ _ _ _))
  · exact .refl s

theorem spares_execUnwindAnswer : s.SparedBy (execUnwindAnswer s) := by
  refine State.Spares.sparedBy ?_
  split
  · split
    · exact spares_setSlot s _ _
    · exact .refl s
  · exact .refl s

theorem spares_execAbortOutcomeWrite (bus : BusEvent) : s.SparedBy (execAbortOutcomeWrite bus s) := by
  refine State.Spares.sparedBy ?_
  split
  · split
    · exact .refl s
    · exact ⟨rfl, rfl, rfl, s.wf_busWrite _ _ _⟩
  · exact .refl s

theorem spares_execReleaseNotice : s.SparedBy (execReleaseNotice s) := by
  refine State.Spares.sparedBy ?_
  split
  · exact .refl s
  · dsimp only
    split
    · split <;> exact ⟨rfl, rfl, rfl, id⟩
    · exact ⟨rfl, rfl, rfl, id⟩

theorem spares_execAbortRequestStop : s.SparedBy (execAbortRequestStop s) := by
  refine State.Spares.sparedBy (spares_ite ?_ (.refl s))
  dsimp only
  split
  · exact ⟨rfl, rfl, rfl, id⟩
  · exact .after (spares_requestAbort _ _ _) ⟨rfl, rfl, rfl, id⟩

theorem spares_execAbortRequestLane : s.SparedBy (execAbortRequestLane s) := by
  refine State.Spares.sparedBy ?_
  split
  · exact .refl s
  · dsimp only
    split
    · exact ⟨rfl, rfl, rfl, id⟩
    · exact spares_ite (.after (spares_requestAbort _ _ _) ⟨rfl, rfl, rfl, id⟩) ⟨rfl, rfl, rfl, id⟩

/-! ## The Scan Unit but for its row output -/

theorem spares_startFrame (moment : Nat) : s.Spares (s.startFrame moment) := ⟨rfl, rfl, rfl, id⟩

theorem spares_orderTaken (rest : List ScanOrder) : s.Spares (s.orderTaken rest) := ⟨rfl, rfl, rfl, id⟩

theorem spares_haltScan : s.Spares s.haltScan := spares_ite (.refl s) ⟨rfl, rfl, rfl, id⟩

theorem spares_haltTaken : s.Spares s.haltTaken := spares_ite ⟨rfl, rfl, rfl, id⟩ (.refl s)

theorem spares_execFrameStart (moment : Nat) : s.SparedBy (execFrameStart moment s) :=
  State.Spares.sparedBy (spares_ite (spares_startFrame s _) (.refl s))

theorem spares_execBeginOrder : s.SparedBy (execBeginOrder s) := by
  refine State.Spares.sparedBy ?_
  split
  · exact spares_ite (.after (spares_startFrame _ _) ⟨rfl, rfl, rfl, id⟩) (spares_orderTaken s _)
  · exact .refl s

theorem spares_execBeginWithBlankFrame : s.SparedBy (execBeginWithBlankFrame s) := by
  refine State.Spares.sparedBy ?_
  split
  · exact spares_ite (.after (spares_startFrame _ _) ⟨rfl, rfl, rfl, id⟩) (spares_orderTaken s _)
  · exact .refl s

theorem spares_execFrameCadence : s.SparedBy (execFrameCadence s) := by
  refine State.Spares.sparedBy ?_
  split
  · exact spares_ite ⟨rfl, rfl, rfl, id⟩ (spares_orderTaken s _)
  · exact .refl s

theorem spares_execHeldCadence : s.SparedBy (execHeldCadence s) := by
  refine State.Spares.sparedBy ?_
  split
  · exact spares_ite ⟨rfl, rfl, rfl, id⟩ (spares_orderTaken s _)
  · exact .refl s

theorem spares_execFinishOrder : s.SparedBy (execFinishOrder s) := by
  refine State.Spares.sparedBy ?_
  split
  · split <;> exact ⟨rfl, rfl, rfl, id⟩
  · exact .refl s

theorem spares_execHaltScanning : s.SparedBy (execHaltScanning s) := by
  refine State.Spares.sparedBy ?_
  split
  · exact ((spares_orderTaken s _).trans (spares_haltScan _)).trans (spares_haltTaken _)
  · exact .refl s

theorem spares_execPublicationReport : s.SparedBy (execPublicationReport s) := by
  refine State.Spares.sparedBy ?_
  split
  · exact .refl s
  · exact spares_ite ⟨rfl, rfl, rfl, id⟩ ⟨rfl, rfl, rfl, id⟩

theorem spares_execLiveRead : s.SparedBy (execLiveRead s) := by
  refine State.Spares.sparedBy ?_
  split
  · exact ⟨rfl, rfl, rfl, id⟩
  · exact .refl s

theorem spares_execViewRead : s.SparedBy (execViewRead s) := by
  refine State.Spares.sparedBy ?_
  split
  · exact spares_setLink s _
  · exact .refl s

/-! ## The Commit Unit -/

theorem spares_completePublication : s.Spares s.completePublication := ⟨rfl, rfl, rfl, id⟩

theorem spares_entryLeaves : s.Spares s.entryLeaves := ⟨rfl, rfl, rfl, id⟩

theorem spares_execReadyAppend : s.SparedBy (execReadyAppend s) := by
  refine State.Spares.sparedBy ?_
  split
  · exact ⟨rfl, rfl, rfl, id⟩
  · exact .refl s

theorem spares_execCommitBoundary : s.SparedBy (execCommitBoundary s) := by
  refine State.Spares.sparedBy ?_
  split
  · exact spares_ite (.after (spares_completePublication _) ⟨rfl, rfl, rfl, id⟩) ⟨rfl, rfl, rfl, id⟩
  · exact .refl s

theorem spares_execPublicationComplete : s.SparedBy (execPublicationComplete s) := by
  refine State.Spares.sparedBy ?_
  split
  · exact spares_completePublication s
  · exact .refl s

theorem spares_execCommitMarkEnd (moment : Nat) : s.SparedBy (execCommitMarkEnd moment s) :=
  State.Spares.sparedBy (spares_ite ⟨rfl, rfl, rfl, id⟩ (.refl s))

theorem spares_execCommittedOutcomeWrite (bus : BusEvent) : s.SparedBy (execCommittedOutcomeWrite bus s) := by
  refine State.Spares.sparedBy ?_
  split
  · exact ⟨rfl, rfl, rfl, s.wf_busWrite _ _ _⟩
  · exact .refl s

/-! ## The Fault Recorder -/

theorem spares_takeFault : s.Spares s.takeFault := by
  unfold State.takeFault
  split
  · exact spares_ite ⟨rfl, rfl, rfl, id⟩ ⟨rfl, rfl, rfl, id⟩
  · exact .refl s

theorem spares_dropFault : s.Spares s.dropFault := .after (spares_takeFault _) ⟨rfl, rfl, rfl, id⟩

theorem spares_recorderFails : s.Spares s.recorderFails := .after (spares_dropFault _) ⟨rfl, rfl, rfl, id⟩

theorem spares_execFaultRequest (sender : FaultSender) : s.SparedBy (execFaultRequest sender s) := by
  refine State.Spares.sparedBy ?_
  split
  · exact .refl s
  · exact spares_ite (.after (spares_takeFault _) ⟨rfl, rfl, rfl, id⟩) ⟨rfl, rfl, rfl, id⟩

theorem spares_execFaultSearchRead (bus : BusEvent) : s.SparedBy (execFaultSearchRead bus s) := by
  refine State.Spares.sparedBy ?_
  have h := spares_busRead s bus
  split
  · dsimp only
    split
    · exact h.trans (spares_recorderFails _)
    · exact spares_ite (h.trans ⟨rfl, rfl, rfl, id⟩)
        (spares_ite (h.trans ⟨rfl, rfl, rfl, id⟩) ((spares_dropFault _).after (h.trans ⟨rfl, rfl, rfl, id⟩)))
  · exact .refl s

theorem spares_execFaultEntryWrite (bus : BusEvent) : s.SparedBy (execFaultEntryWrite bus s) := by
  refine State.Spares.sparedBy ?_
  split
  · have h := spares_busWrite s bus
    exact spares_ite ((spares_dropFault _).after ((h _ _).trans ⟨rfl, rfl, rfl, id⟩))
      ((h _ _).trans (spares_recorderFails _))
  · exact .refl s

theorem spares_execOverflowClear : s.SparedBy (execOverflowClear s) := by
  refine State.Spares.sparedBy ?_
  split
  · exact .refl s
  · exact ⟨rfl, rfl, rfl, id⟩

/-! ## The Grant Arbiter -/

theorem spares_trySelect : s.Spares s.trySelect := by
  unfold State.trySelect
  refine spares_ite ?_ (.refl s)
  split
  · exact .refl s
  · dsimp only
    split <;> exact ⟨rfl, rfl, rfl, id⟩

theorem spares_execGrantRequest : s.SparedBy (execGrantRequest s) :=
  State.Spares.sparedBy (spares_ite (.after (spares_trySelect _) ⟨rfl, rfl, rfl, id⟩) (.refl s))

theorem spares_execEligibilityReport : s.SparedBy (execEligibilityReport s) := by
  refine State.Spares.sparedBy ?_
  split
  · exact .refl s
  · exact .after (spares_trySelect _) ⟨rfl, rfl, rfl, id⟩

theorem spares_execGrant : s.SparedBy (execGrant s) := by
  refine State.Spares.sparedBy ?_
  split
  · split <;> exact ⟨rfl, rfl, rfl, id⟩
  · exact .refl s

theorem spares_execGrantAnswer : s.SparedBy (execGrantAnswer s) := by
  refine State.Spares.sparedBy ?_
  split
  · exact ⟨rfl, rfl, rfl, id⟩
  · exact .after (spares_trySelect _) ⟨rfl, rfl, rfl, id⟩
  · exact .refl s

theorem spares_execArbiterBoundary : s.SparedBy (execArbiterBoundary s) := by
  refine State.Spares.sparedBy ?_
  split
  · exact .refl s
  · exact ⟨rfl, rfl, rfl, id⟩

/-! ## The Lane Service -/

theorem spares_endPollOf (l : Lane) : s.Spares (s.endPollOf l) := by
  unfold State.endPollOf
  split
  · exact spares_ite (spares_setPhase s _) (.refl s)
  · exact .refl s

theorem spares_beginDraining (l : Lane) (target : DrainTarget) : s.Spares (s.beginDraining l target) :=
  ⟨rfl, rfl, rfl, id⟩

theorem spares_haltLane (l : Lane) (c : FaultCode) (a : Word) (n : Half) : s.Spares (s.haltLane l c a n) := by
  have h : s.Spares ((s.askFault .laneService (haltRequest l c a n)).askFlag .lane) := ⟨rfl, rfl, rfl, id⟩
  unfold State.haltLane
  split
  · exact ((h.trans (spares_setLane _ l _)).trans (spares_beginDraining _ l _)).trans (spares_endPollOf _ l)
  · exact h.trans (spares_setLane _ l _)
  all_goals exact .refl s

theorem spares_followLink (l : Lane) (link : Word) : s.Spares (s.followLink l link) :=
  spares_ite (spares_setPhase s _) (spares_ite (spares_setPhase s _) (spares_haltLane s _ _ _ _))

theorem spares_poll (l : Lane) (headLink : Word) : s.Spares (s.poll l headLink) :=
  spares_ite (spares_ite (spares_setPhase s _)
    (spares_ite (spares_followLink s _ _) (spares_ite (spares_setPhase s _) (spares_setPhase s _)))) (.refl s)

theorem spares_notifyIf (asked : Bool) : s.Spares (s.notifyIf asked) := spares_ite (spares_askFlag s _) (.refl s)

theorem spares_nextSetup (l : Lane) : s.Spares (s.nextSetup l) := by
  unfold State.nextSetup
  split <;> exact ⟨rfl, rfl, rfl, id⟩

theorem spares_perform (t : LaneTask) : s.Spares (s.perform t) := by
  cases t
  case notifyEntry l => exact spares_notifyIf s _
  case removeEntry l => exact spares_setLane s _ _
  case notifyFlight l => exact spares_notifyIf s _
  case outcomeHalt l a n => exact spares_haltLane s _ _ _ _
  case clearFlight l => exact spares_setLane s _ _
  case reportEligible l => exact spares_ite ⟨rfl, rfl, rfl, id⟩ (.refl s)
  case reportTaken => exact spares_entryLeaves s
  case startPoll l h => exact spares_poll s _ _
  case continuePoll l => exact spares_poll s _ _
  case nextSetup l => exact spares_nextSetup s _
  all_goals exact .refl s

theorem spares_stopAll : s.Spares s.stopAll := ⟨rfl, rfl, rfl, id⟩

theorem spares_endJob (j : BoundaryJob) : s.Spares (s.endJob j) := ⟨rfl, rfl, rfl, id⟩

theorem spares_settle : s.Spares s.settle := by
  unfold State.settle
  split
  · refine spares_ite (spares_ite ((spares_endJob s _).trans (spares_stopAll _)) ?_) (.refl s)
    split
    · exact ⟨rfl, rfl, rfl, id⟩
    · exact spares_endJob s _
  · exact .refl s

theorem spares_work (ts : List LaneTask) : s.Spares (State.work ts s) := by
  induction ts generalizing s with
  | nil => exact (spares_setAgenda s []).trans (spares_settle _)
  | cons t rest ih =>
    exact spares_ite (spares_setAgenda s _)
      (spares_ite ((spares_perform s t).trans (ih _)) ((spares_perform s t).trans (spares_setAgenda _ _)))

theorem spares_actOnRequest (l : Lane) (r : LaneRecord) : s.Spares (s.actOnRequest l r).1 := by
  unfold State.actOnRequest
  dsimp only
  split <;> exact ⟨rfl, rfl, rfl, id⟩

theorem spares_takeTicket (l : Lane) (ticket : Byte) : s.Spares (s.takeTicket l ticket) := ⟨rfl, rfl, rfl, id⟩

theorem spares_requestStep (l : Lane) (r : LaneRecord) : s.Spares (s.requestStep l r) :=
  spares_ite (spares_work s _)
    (((spares_takeTicket s l r.ticket).trans (spares_actOnRequest _ l r)).trans (spares_work _ _))

theorem spares_fetch (j : BoundaryJob) (h : HeaderCopy) (frame : Word) : s.Spares (s.fetch j h frame) :=
  ⟨rfl, rfl, rfl, id⟩

theorem spares_execLaneRecordWrite (bus : BusEvent) : s.SparedBy (execLaneRecordWrite bus s) := by
  refine State.Spares.sparedBy ?_
  split
  · exact .refl s
  · split
    · exact .refl s
    · rename_i a bs _
      have h := spares_busWrite s bus a bs
      exact spares_ite (h.trans (spares_work _ _)) ((h.trans (spares_haltLane _ _ _ _ _)).trans (spares_work _ _))

theorem spares_execLaneSetup (bus : BusEvent) : s.SparedBy (execLaneSetup bus s) := by
  refine State.Spares.sparedBy ?_
  have h := spares_busRead s bus
  split
  · dsimp only
    split
    · exact (h.trans (spares_setLane _ _ _)).trans (spares_work _ _)
    · exact (spares_work _ _).after (h.trans ⟨rfl, rfl, rfl, id⟩)
  · exact .refl s

theorem spares_execLaneBoundary : s.SparedBy (execLaneBoundary s) := by
  refine State.Spares.sparedBy ?_
  split
  · exact spares_ite ⟨rfl, rfl, rfl, id⟩ ⟨rfl, rfl, rfl, id⟩
  · exact .refl s

theorem spares_execLaneRequestRead (bus : BusEvent) : s.SparedBy (execLaneRequestRead bus s) := by
  refine State.Spares.sparedBy ?_
  have h : ∀ p, s.Spares ((s.busRead bus).setPhase p) := fun p => (spares_busRead s bus).trans (spares_setPhase _ p)
  split
  · refine spares_ite (spares_ite ((h _).trans (spares_work _ _)) ?_) (.refl s)
    split
    · exact (h _).trans (spares_requestStep _ _ _)
    · exact ((h _).trans (spares_ite (spares_haltLane _ _ _ _ _) (.refl _))).trans (spares_work _ _)
  · exact .refl s

theorem spares_execNextLinkRead (bus : BusEvent) : s.SparedBy (execNextLinkRead bus s) := by
  refine State.Spares.sparedBy ?_
  have h := spares_busRead s bus
  split
  · refine spares_ite ?_ (.refl s)
    dsimp only
    split
    · exact spares_ite ((h.trans (spares_setPhase _ _)).trans (spares_work _ _))
        ((h.trans (spares_followLink _ _ _)).trans (spares_work _ _))
    · exact (h.trans (spares_haltLane _ _ _ _ _)).trans (spares_work _ _)
  · exact .refl s

theorem spares_execHeaderRead (bus : BusEvent) : s.SparedBy (execHeaderRead bus s) := by
  refine State.Spares.sparedBy ?_
  have h := spares_busRead s bus
  split
  · split
    · dsimp only
      split
      · exact (h.trans (spares_haltLane _ _ _ _ _)).trans (spares_work _ _)
      · exact spares_ite ((h.trans (spares_fetch _ _ _ _)).trans (spares_work _ _))
          ((h.trans (spares_haltLane _ _ _ _ _)).trans (spares_work _ _))
    all_goals exact .refl s
  · exact .refl s

theorem spares_execEndReport (reporter : EndReporter) : s.SparedBy (execEndReport reporter s) := by
  refine State.Spares.sparedBy ?_
  split
  · split
    · exact .after (spares_work _ _) ⟨rfl, rfl, rfl, id⟩
    · exact .refl s
  · split
    · exact .after (spares_work _ _) ⟨rfl, rfl, rfl, id⟩
    · exact .refl s
  · exact .refl s

theorem spares_execCompletionReport : s.SparedBy (execCompletionReport s) := by
  refine State.Spares.sparedBy ?_
  split
  · exact spares_ite (.after (spares_work _ _) ⟨rfl, rfl, rfl, id⟩) ⟨rfl, rfl, rfl, id⟩
  · exact .refl s

theorem spares_execStopNotice : s.SparedBy (execStopNotice s) := by
  refine State.Spares.sparedBy (spares_ite ?_ (.refl s))
  split
  · exact .after (spares_stopAll _) ⟨rfl, rfl, rfl, id⟩
  · exact ⟨rfl, rfl, rfl, id⟩
  · exact .refl s

theorem spares_execPollReport : s.SparedBy (execPollReport s) := by
  refine State.Spares.sparedBy ?_
  split
  · exact .refl s
  · exact ⟨rfl, rfl, rfl, id⟩

/-! ## The Mode Controller -/

theorem spares_takeCommand (c : PartCommand) : s.Spares (s.takeCommand c) := by
  cases c with
  | start => exact spares_ite ⟨rfl, rfl, rfl, id⟩ (spares_ite ⟨rfl, rfl, rfl, id⟩
      (spares_ite ⟨rfl, rfl, rfl, id⟩ ⟨rfl, rfl, rfl, id⟩))
  | stop =>
    show s.Spares s.takeStop
    unfold State.takeStop
    split <;> exact ⟨rfl, rfl, rfl, id⟩
  | sleep =>
    show s.Spares s.takeSleep
    unfold State.takeSleep
    split <;> exact ⟨rfl, rfl, rfl, id⟩
  | wake =>
    show s.Spares s.takeWake
    unfold State.takeWake
    split <;> exact ⟨rfl, rfl, rfl, id⟩

theorem spares_takeHanded (c : PartCommand) : s.Spares (s.takeHanded c) :=
  spares_ite (spares_takeCommand s c) (.refl s)

theorem spares_commandArrives (c : PartCommand) : s.Spares (s.commandArrives c) := by
  unfold State.commandArrives
  split
  · exact .after (spares_takeHanded _ c) ⟨rfl, rfl, rfl, id⟩
  all_goals exact ⟨rfl, rfl, rfl, id⟩

theorem spares_command (c : PartCommand) (src : CmdSource) : s.Spares (s.command c src) := by
  cases src with
  | write e => exact spares_ite (.refl s) (.after (spares_commandArrives _ c) ⟨rfl, rfl, rfl, id⟩)
  | handedOver => exact spares_takeHanded s c

theorem spares_execPlanRead (bus : BusEvent) : s.SparedBy (execPlanRead bus s) := by
  refine State.Spares.sparedBy ?_
  have h := spares_busRead s bus
  split
  · dsimp only
    split
    · exact h.trans ⟨rfl, rfl, rfl, id⟩
    · split <;> exact h.trans ⟨rfl, rfl, rfl, id⟩
  · exact .refl s

theorem spares_execStartingLineFill : s.SparedBy (execStartingLineFill s) := by
  refine State.Spares.sparedBy ?_
  split
  · exact ⟨rfl, rfl, rfl, id⟩
  · exact .refl s

theorem spares_execSetupComplete : s.SparedBy (execSetupComplete s) :=
  State.Spares.sparedBy (spares_ite ⟨rfl, rfl, rfl, id⟩ (.refl s))

theorem spares_execRampUpEnd (moment : Nat) : s.SparedBy (execRampUpEnd moment s) :=
  State.Spares.sparedBy (spares_ite (spares_ite ⟨rfl, rfl, rfl, id⟩ (spares_ite ⟨rfl, rfl, rfl, id⟩ ⟨rfl, rfl, rfl, id⟩))
    (.refl s))

theorem spares_execRampDownEnd (moment : Nat) : s.SparedBy (execRampDownEnd moment s) :=
  State.Spares.sparedBy (spares_ite (spares_ite (spares_ite ⟨rfl, rfl, rfl, id⟩ ⟨rfl, rfl, rfl, id⟩) ⟨rfl, rfl, rfl, id⟩)
    (.refl s))

theorem spares_execSleepingQuiesced : s.SparedBy (execSleepingQuiesced s) :=
  State.Spares.sparedBy (spares_ite ⟨rfl, rfl, rfl, id⟩ (.refl s))

theorem spares_execStoppingEngineIdle : s.SparedBy (execStoppingEngineIdle s) :=
  State.Spares.sparedBy (spares_ite ⟨rfl, rfl, rfl, id⟩ (.refl s))

theorem spares_execStoppingComplete : s.SparedBy (execStoppingComplete s) :=
  State.Spares.sparedBy (spares_ite ⟨rfl, rfl, rfl, id⟩ (.refl s))

theorem spares_execSleepStopEndingsDone : s.SparedBy (execSleepStopEndingsDone s) :=
  State.Spares.sparedBy (spares_ite (spares_ite ⟨rfl, rfl, rfl, id⟩ ⟨rfl, rfl, rfl, id⟩) (.refl s))

theorem spares_tryHold : s.Spares s.tryHold := spares_ite ⟨rfl, rfl, rfl, id⟩ (.refl s)

theorem spares_execBoundaryEvaluation : s.SparedBy (execBoundaryEvaluation s) := by
  refine State.Spares.sparedBy ?_
  split
  · dsimp only
    split
    · exact .after (spares_tryHold _) ⟨rfl, rfl, rfl, id⟩
    · exact spares_ite ⟨rfl, rfl, rfl, id⟩ ⟨rfl, rfl, rfl, id⟩
    all_goals exact ⟨rfl, rfl, rfl, id⟩
  · exact .refl s

theorem spares_faultReport : s.Spares s.faultReport := by
  unfold State.faultReport
  split
  case h_3 => exact spares_ite (spares_ite ⟨rfl, rfl, rfl, id⟩ ⟨rfl, rfl, rfl, id⟩) (spares_setMode s _)
  all_goals exact ⟨rfl, rfl, rfl, id⟩

theorem spares_execDamageLimitReport : s.SparedBy (execDamageLimitReport s) := by
  refine State.Spares.sparedBy ?_
  split
  · exact .refl s
  · exact .after (spares_faultReport _) ⟨rfl, rfl, rfl, id⟩

theorem spares_execRecorderFailureReport : s.SparedBy (execRecorderFailureReport s) := by
  refine State.Spares.sparedBy ?_
  split
  · exact .refl s
  · exact .after (spares_faultReport _) ⟨rfl, rfl, rfl, id⟩

/-! ## The Register Port -/

theorem spares_execExbWrite (value : Word) : s.SparedBy (execExbWrite value s) :=
  State.Spares.sparedBy (spares_ite ⟨rfl, rfl, rfl, id⟩ (.refl s))

theorem spares_execStsWrite (value : Word) : s.SparedBy (execStsWrite value s) :=
  State.Spares.sparedBy (spares_ite (.refl s) ⟨rfl, rfl, rfl, id⟩)

theorem spares_execFlagSetRequest (flag : Flag) : s.SparedBy (execFlagSetRequest flag s) :=
  State.Spares.sparedBy (spares_ite ⟨rfl, rfl, rfl, id⟩ (.refl s))

theorem spares_execCommandResult : s.SparedBy (execCommandResult s) := by
  refine State.Spares.sparedBy ?_
  split
  · split <;> exact ⟨rfl, rfl, rfl, id⟩
  · exact .refl s

/-! ## Every command -/

/-- The commands that may touch the map, the line store or the frame count: the resets, the row output, the claims and
the mark notice, and the line reads and writes. -/
def reachesStores : Instr → Bool
  | .powerOnReset _ | .reset _ | .resetPinAsserted _ | .enableWrite _ | .rowOutput _ | .writeClaim | .aliasClaim _
  | .shiftClaim | .unwindClaim | .publishClaim | .markNotice | .lineRead _ _ | .wholeLineWrite _ | .spanWrite => true
  | _ => false

/-- Every other command spares them. -/
theorem exec_spares (c : Instr) (h : reachesStores c = false) : s.SparedBy (exec c s) := by
  cases c with
  | start _ => exact (spares_command s _ _).sparedBy
  | planRead bus => exact spares_execPlanRead s bus
  | stop _ => exact (spares_command s _ _).sparedBy
  | sleep _ => exact (spares_command s _ _).sparedBy
  | wake _ => exact (spares_command s _ _).sparedBy
  | exbWrite value => exact spares_execExbWrite s value
  | stsWrite value => exact spares_execStsWrite s value
  | registerWriteIgnored _ _ _ => exact (State.Spares.refl s).sparedBy
  | startingLineFill => exact spares_execStartingLineFill s
  | laneSetup bus => exact spares_execLaneSetup s bus
  | setupComplete => exact spares_execSetupComplete s
  | rampUpEnd moment => exact spares_execRampUpEnd s moment
  | rampDownEnd moment => exact spares_execRampDownEnd s moment
  | sleepingQuiesced => exact spares_execSleepingQuiesced s
  | stoppingEngineIdle => exact spares_execStoppingEngineIdle s
  | stoppingComplete => exact spares_execStoppingComplete s
  | boundaryEvaluation => exact spares_execBoundaryEvaluation s
  | damageLimitReport => exact spares_execDamageLimitReport s
  | recorderFailureReport => exact spares_execRecorderFailureReport s
  | frameStart moment => exact spares_execFrameStart s moment
  | beginOrder => exact spares_execBeginOrder s
  | beginWithBlankFrame => exact spares_execBeginWithBlankFrame s
  | frameCadence => exact spares_execFrameCadence s
  | heldCadence => exact spares_execHeldCadence s
  | finishOrder => exact spares_execFinishOrder s
  | haltScanning => exact spares_execHaltScanning s
  | commitBoundary => exact spares_execCommitBoundary s
  | publicationComplete => exact spares_execPublicationComplete s
  | commitMarkEnd moment => exact spares_execCommitMarkEnd s moment
  | publicationReport => exact spares_execPublicationReport s
  | committedOutcomeWrite bus => exact spares_execCommittedOutcomeWrite s bus
  | readyAppend => exact spares_execReadyAppend s
  | laneBoundary => exact spares_execLaneBoundary s
  | laneRequestRead bus => exact spares_execLaneRequestRead s bus
  | nextLinkRead bus => exact spares_execNextLinkRead s bus
  | headerRead bus => exact spares_execHeaderRead s bus
  | laneRecordWrite bus => exact spares_execLaneRecordWrite s bus
  | endReport reporter => exact spares_execEndReport s reporter
  | completionReport => exact spares_execCompletionReport s
  | stopNotice => exact spares_execStopNotice s
  | pollReport => exact spares_execPollReport s
  | eligibilityReport => exact spares_execEligibilityReport s
  | grantRequest => exact spares_execGrantRequest s
  | grant => exact spares_execGrant s
  | grantAnswer => exact spares_execGrantAnswer s
  | arbiterBoundary => exact spares_execArbiterBoundary s
  | trailerReadStart bus => exact spares_execTrailerReadStart s bus
  | opRecordRead bus => exact spares_execOpRecordRead s bus
  | writeClaimAnswer => exact spares_execWriteClaimAnswer s
  | engineLineReadAnswer => exact spares_execEngineLineReadAnswer s
  | engineLineWriteDone => exact spares_execEngineLineWriteDone s
  | aliasClaimAnswer => exact spares_execAliasClaimAnswer s
  | shiftClaimAnswer => exact spares_execShiftClaimAnswer s
  | viewReadAnswer => exact spares_execViewReadAnswer s
  | sourceRowRead bus => exact spares_execSourceRowRead s bus
  | readbackRowWrite bus => exact spares_execReadbackRowWrite s bus
  | trailerReadEnd bus => exact spares_execTrailerReadEnd s bus
  | unwindAnswer => exact spares_execUnwindAnswer s
  | abortOutcomeWrite bus => exact spares_execAbortOutcomeWrite s bus
  | releaseNotice => exact spares_execReleaseNotice s
  | abortRequestStop => exact spares_execAbortRequestStop s
  | abortRequestLane => exact spares_execAbortRequestLane s
  | viewRead => exact spares_execViewRead s
  | liveRead => exact spares_execLiveRead s
  | faultRequest sender => exact spares_execFaultRequest s sender
  | faultSearchRead bus => exact spares_execFaultSearchRead s bus
  | faultEntryWrite bus => exact spares_execFaultEntryWrite s bus
  | overflowClear => exact spares_execOverflowClear s
  | flagSetRequest flag => exact spares_execFlagSetRequest s flag
  | commandResult => exact spares_execCommandResult s
  | sleepStopEndingsDone => exact spares_execSleepStopEndingsDone s
  | _ => cases h

end Sys2Proof.Machine
end

section
/-! SUPPORT. Claims that go row by row: what a run of row steps leaves in each row, and which lines it gives back and in
what order (01 R8, R12, R16, R17). -/

namespace Sys2Proof.Machine.MapUnit

/-! ## What names a line -/

theorem unreferenced_iff_counts (m : MapUnit) (n : Nat) :
    m.unreferenced n = true ↔ m.liveOf n = 0 ∧ m.stageOf n = 0 := by
  simp [unreferenced]

/-- 01 R7, R8: with the books balanced, a line is unreferenced when no row shows it and no staged entry names it. -/
theorem Consistent.unreferenced_iff {m : MapUnit} (h : m.Consistent) (n : Nat) :
    m.unreferenced n = true ↔
      ∀ r, r < Config.rows → m.liveLine r ≠ n ∧ ∀ e, m.staged r = some e → e.line ≠ n := by
  rw [unreferenced_iff_counts]
  constructor
  · rintro ⟨hlive, hstage⟩ r hr
    refine ⟨fun hl => (h.live_referenced hr).2 (hl ▸ hlive), fun e he hl => (h.staged_referenced he).2 (hl ▸ hstage)⟩
  · intro hn
    by_cases hlt : n < Config.storeLines
    · rw [h.liveCounted n hlt, h.stageCounted n hlt, List.count_eq_zero, stagedNaming, List.countP_eq_zero]
      constructor
      · intro hmem
        obtain ⟨r, hr, hg⟩ := List.getElem_of_mem hmem
        exact (hn r (h.liveLength ▸ hr)).1 (by rw [liveLine, List.getD_eq_getElem _ _ hr, hg])
      · intro o ho
        obtain ⟨r, hr, hg⟩ := List.getElem_of_mem ho
        cases o with
        | none => simp [namesLine]
        | some e => simpa [namesLine] using (hn r (h.stageLength ▸ hr)).2 e (by rw [staged_eq m r hr, hg])
    · have hlive := h.liveCounts
      have hstage := h.stageCounts
      exact ⟨List.getD_eq_default _ _ (by omega), List.getD_eq_default _ _ (by omega)⟩

/-- 01 R6: the set's own staged line, as a filter of the row's entry. -/
theorem ownLine_eq (m : MapUnit) (set : SetId) (r : Nat) :
    m.ownLine set r = ((m.staged r).filter fun e => e.owner == set).map fun e => e.line := by
  unfold ownLine
  cases m.staged r with
  | none => rfl
  | some e => by_cases h : e.owner = set <;> simp [h]

theorem ownLine_of_staged {m : MapUnit} {set : SetId} {r : Nat} {e : StagedEntry} (he : m.staged r = some e)
    (ho : e.owner = set) : m.ownLine set r = some e.line := by
  rw [ownLine, he]
  exact if_pos ho

theorem ownLine_isSome (m : MapUnit) (set : SetId) (r : Nat) :
    (m.ownLine set r).isSome = (m.staged r).any fun e => e.owner == set := by
  rw [ownLine_eq]
  cases m.staged r with
  | none => rfl
  | some e => by_cases h : e.owner = set <;> simp [h]

theorem ownedCount_eq (m : MapUnit) (set : SetId) :
    m.ownedCount set = ((List.range 240).filter fun r => (m.staged r).any fun e => e.owner == set).length := by
  unfold ownedCount
  simp only [ownLine_isSome]
  rfl

/-! ## The return test -/

theorem returnTest_fresh (marks : List Bool) (m : MapUnit) (line : Nat) :
    (returnTest marks m line).fresh = m.fresh := by
  unfold returnTest
  split
  · split <;> rfl
  · rfl

theorem returnTest_unreferenced (marks : List Bool) (m : MapUnit) (line n : Nat) :
    (returnTest marks m line).unreferenced n = m.unreferenced n := by
  rw [unreferenced, returnTest_liveOf, returnTest_stageOf, unreferenced]

theorem GivesBack.nothing (m : MapUnit) (marked : Nat → Bool) : m.GivesBack m marked [] := by simp [GivesBack]

theorem GivesBack.append {a b c : MapUnit} {marked : Nat → Bool} {xs ys : List Nat} (h : a.GivesBack b marked xs)
    (h' : b.GivesBack c marked ys) : a.GivesBack c marked (xs ++ ys) := by
  obtain ⟨hp, hd⟩ := h
  obtain ⟨hp', hd'⟩ := h'
  simp [GivesBack, hp', hd', hp, hd]

/-- 01 R8: the return test gives the line back if nothing names it. -/
theorem returnTest_givesBack (marks : List Bool) (m : MapUnit) (line : Nat) :
    m.GivesBack (returnTest marks m line) (fun n => marks.getD n false)
      ([line].filter (returnTest marks m line).unreferenced) := by
  rw [List.filter_singleton, returnTest_unreferenced]
  unfold returnTest
  by_cases hu : m.unreferenced line = true
  · simp only [hu, if_true, cond_true]
    cases hm : marks.getD line false
    · exact ⟨by simp [hm, -List.getD_eq_getElem?_getD], by simp [hm, -List.getD_eq_getElem?_getD]⟩
    · exact ⟨by simp [hm, -List.getD_eq_getElem?_getD], by simp [hm, -List.getD_eq_getElem?_getD]⟩
  · simp only [hu, cond_false]
    exact .nothing m _

/-- 01 R8: the number of lines that joined the pool. -/
theorem GivesBack.returnedLines {a b : MapUnit} {marked : Nat → Bool} {lines : List Nat}
    (h : a.GivesBack b marked lines) :
    Machine.returnedLines a b = (lines.filter fun line => !marked line).length := by
  obtain ⟨hp, _⟩ := h
  simp [Machine.returnedLines, hp]

/-! ## Lines given back by a run of rows -/

/-- The lines left with nothing to name them among those that `rows` give up, each at the last row that gives it up. -/
def linesLeftIn (after : MapUnit) (gives : Nat → Option Nat) (rows : List Nat) : List Nat :=
  rows.filterMap fun r =>
    (gives r).filter fun line => after.unreferenced line && rows.all fun r' => r' ≤ r || gives r' != some line

theorem linesLeft_eq (after : MapUnit) (gives : Nat → Option Nat) :
    after.linesLeft gives = after.linesLeftIn gives allRows := rfl

theorem linesLeftIn_cons (after : MapUnit) (gives : Nat → Option Nat) {r : Nat} {rows : List Nat}
    (hr : ∀ r' ∈ rows, r < r') :
    after.linesLeftIn gives (r :: rows) =
      ((gives r).filter fun line => after.unreferenced line && rows.all fun r' => gives r' != some line).toList ++
        after.linesLeftIn gives rows := by
  have hhead : ∀ line, ((r :: rows).all fun r' => decide (r' ≤ r) || gives r' != some line) =
      rows.all fun r' => gives r' != some line := fun line => by
    rw [List.all_cons, Bool.eq_iff_iff]
    simp only [le_refl, decide_true, Bool.true_or, Bool.true_and, List.all_eq_true, Bool.or_eq_true,
      decide_eq_true_eq]
    exact forall₂_congr fun r' hr' => or_iff_right (Nat.not_le.2 (hr r' hr'))
  have htail : (rows.filterMap fun q => (gives q).filter fun line => after.unreferenced line &&
      (r :: rows).all fun r' => decide (r' ≤ q) || gives r' != some line) = after.linesLeftIn gives rows :=
    List.filterMap_congr fun q hq => by simp [(hr q hq).le]
  simp only [linesLeftIn] at htail ⊢
  rw [List.filterMap_cons, htail]
  simp only [hhead]
  cases (gives r).filter _ <;> rfl

theorem linesLeftIn_congr (after : MapUnit) {gives gives' : Nat → Option Nat} {rows : List Nat}
    (h : ∀ r ∈ rows, gives r = gives' r) : after.linesLeftIn gives rows = after.linesLeftIn gives' rows := by
  refine List.filterMap_congr fun r hr => ?_
  rw [h r hr]
  congr 1
  funext line
  congr 1
  rw [Bool.eq_iff_iff, List.all_eq_true, List.all_eq_true]
  exact forall₂_congr fun r' hr' => by rw [h r' hr']

/-- A step that goes row by row: each row of `f` gives up the line that `gives` names at it, if any, tests it for return,
and changes what no other row gives up. `left` says that a line named by nothing stays so and is given up no more, and
that only giving a line up can leave it with nothing to name it. -/
structure RowStep (Inv : MapUnit → Prop) (marked : Nat → Bool) (f : MapUnit → Nat → MapUnit)
    (gives : MapUnit → Nat → Option Nat) : Prop where
  keeps  : ∀ m r, Inv m → r < Config.rows → Inv (f m r)
  others : ∀ m r r', Inv m → r < Config.rows → r' ≠ r → gives (f m r) r' = gives m r'
  back   : ∀ m r, Inv m → r < Config.rows →
    m.GivesBack (f m r) marked ((gives m r).toList.filter (f m r).unreferenced)
  left   : ∀ m r line, Inv m → r < Config.rows →
    ((f m r).unreferenced line = true ∧ gives m r ≠ some line ↔ m.unreferenced line = true)

section
variable {Inv : MapUnit → Prop} {marked : Nat → Bool} {f : MapUnit → Nat → MapUnit} {gives : MapUnit → Nat → Option Nat}

/-- A line that nothing names before the run is named by nothing after it and given up by no row, and conversely. -/
theorem RowStep.foldl_unreferenced (h : RowStep Inv marked f gives) (line : Nat) {rows : List Nat}
    (hd : rows.Nodup) (hr : ∀ r ∈ rows, r < Config.rows) {m : MapUnit} (hm : Inv m) :
    ((rows.foldl f m).unreferenced line && rows.all fun r => gives m r != some line) = m.unreferenced line := by
  induction rows generalizing m with
  | nil => simp
  | cons r rows ih =>
    obtain ⟨hnotin, hd⟩ := List.nodup_cons.1 hd
    have hr0 : r < Config.rows := hr r List.mem_cons_self
    have hrest := ih hd (fun q hq => hr q (List.mem_cons_of_mem r hq)) (h.keeps m r hm hr0)
    have hsame : (rows.all fun q => gives (f m r) q != some line) = rows.all fun q => gives m q != some line := by
      rw [Bool.eq_iff_iff, List.all_eq_true, List.all_eq_true]
      exact forall₂_congr fun q hq => by rw [h.others m r q hm hr0 (fun e => hnotin (e ▸ hq))]
    rw [hsame] at hrest
    rw [List.foldl_cons, List.all_cons, Bool.and_left_comm, hrest, Bool.eq_iff_iff, ← h.left m r line hm hr0,
      Bool.and_eq_true, bne_iff_ne, and_comm]

/-- 01 R8: the lines a run of rows gives back, in order. -/
theorem RowStep.foldl_givesBack (h : RowStep Inv marked f gives) {rows : List Nat} (hs : rows.Pairwise (· < ·))
    (hr : ∀ r ∈ rows, r < Config.rows) {m : MapUnit} (hm : Inv m) :
    m.GivesBack (rows.foldl f m) marked ((rows.foldl f m).linesLeftIn (gives m) rows) := by
  induction rows generalizing m with
  | nil => exact .nothing m marked
  | cons r rows ih =>
    obtain ⟨hlt, hs⟩ := List.pairwise_cons.1 hs
    have hr0 : r < Config.rows := hr r List.mem_cons_self
    have hrows : ∀ q ∈ rows, q < Config.rows := fun q hq => hr q (List.mem_cons_of_mem r hq)
    have hm1 := h.keeps m r hm hr0
    have hsame : ∀ q ∈ rows, gives (f m r) q = gives m q := fun q hq => h.others m r q hm hr0 (hlt q hq).ne'
    have hhead : (gives m r).toList.filter (f m r).unreferenced =
        ((gives m r).filter fun line => (rows.foldl f (f m r)).unreferenced line &&
          rows.all fun q => gives m q != some line).toList := by
      have hu : ∀ line, ((rows.foldl f (f m r)).unreferenced line && rows.all fun q => gives m q != some line) =
          (f m r).unreferenced line := fun line => by
        rw [← h.foldl_unreferenced line hs.nodup hrows hm1]
        congr 1
        rw [Bool.eq_iff_iff, List.all_eq_true, List.all_eq_true]
        exact forall₂_congr fun q hq => by rw [hsame q hq]
      simp only [hu]
      exact (Option.toList_filter ..).symm
    rw [List.foldl_cons, linesLeftIn_cons _ _ hlt, ← hhead, ← linesLeftIn_congr _ hsame]
    exact (h.back m r hm hr0).append (ih hs hrows hm1)

/-- The same step taken on some of the rows only. -/
theorem RowStep.restrict (h : RowStep Inv marked f gives) (p : Nat → Prop) [DecidablePred p] :
    RowStep Inv marked (fun m r => if p r then f m r else m) (fun m r => if p r then gives m r else none) where
  keeps m r hm hr := by
    split
    · exact h.keeps m r hm hr
    · exact hm
  others m r r' hm hr hne := by
    split
    · split
      · exact h.others m r r' hm hr hne
      · rfl
    · rfl
  back m r hm hr := by
    split
    · exact h.back m r hm hr
    · exact .nothing m marked
  left m r line hm hr := by
    split
    · exact h.left m r line hm hr
    · simp

end

/-! ## What a run of rows leaves in each row -/

/-- A run of steps each of which changes what its own row holds, and that by `v`. -/
theorem foldl_at_row {γ : Type} (φ : MapUnit → Nat → γ) (v : Nat → γ → γ) {Inv : MapUnit → Prop}
    {f : MapUnit → Nat → MapUnit} (hI : ∀ m r, Inv m → r < Config.rows → Inv (f m r))
    (hf : ∀ m r r', Inv m → r < Config.rows → φ (f m r) r' = if r' = r then v r (φ m r) else φ m r')
    {rows : List Nat} (hd : rows.Nodup) (hr : ∀ r ∈ rows, r < Config.rows) {m : MapUnit} (hm : Inv m) (r' : Nat) :
    φ (rows.foldl f m) r' = if r' ∈ rows then v r' (φ m r') else φ m r' := by
  induction rows generalizing m with
  | nil => simp
  | cons r rows ih =>
    obtain ⟨hnotin, hd⟩ := List.nodup_cons.1 hd
    have hr0 : r < Config.rows := hr r List.mem_cons_self
    rw [List.foldl_cons, ih hd (fun q hq => hr q (List.mem_cons_of_mem r hq)) (hI m r hm hr0), hf m r r' hm hr0]
    by_cases e : r' = r
    · subst e
      simp [hnotin]
    · simp [e]

/-- A run of steps none of which changes a field. -/
theorem foldl_same {β γ : Type} (φ : MapUnit → γ) {f : MapUnit → β → MapUnit} (hf : ∀ m b, φ (f m b) = φ m)
    (bs : List β) (m : MapUnit) : φ (bs.foldl f m) = φ m := by
  induction bs generalizing m with
  | nil => rfl
  | cons b bs ih => rw [List.foldl_cons, ih, hf]

/-! ## The stage step (01 R12) -/

theorem stageStep_live (marks : List Bool) (set : SetId) (line : Nat) (m : MapUnit) (row : Nat) :
    (stageStep marks set line m row).live = m.live := by
  unfold stageStep
  split
  · rfl
  · split
    · rfl
    · rw [returnTest_live]
      rfl

theorem stageStep_fresh (marks : List Bool) (set : SetId) (line : Nat) (m : MapUnit) (row : Nat) :
    (stageStep marks set line m row).fresh = m.fresh := by
  unfold stageStep
  split
  · rfl
  · split
    · rfl
    · rw [returnTest_fresh]
      rfl

theorem stageStep_staged (marks : List Bool) (set : SetId) (line : Nat) (m : MapUnit) {row : Nat}
    (h : row < m.staging.length) (r : Nat) :
    (stageStep marks set line m row).staged r = if r = row then some ⟨line, set⟩ else m.staged r := by
  have hput : ∀ m' : MapUnit, m'.staging = m.staging.set row (some ⟨line, set⟩) →
      m'.staged r = if r = row then some ⟨line, set⟩ else m.staged r := fun m' e => by
    rw [staged, e]
    exact getD_set _ _ _ _ _ h
  refine hput _ ?_
  unfold stageStep
  split
  · rfl
  · split
    · rfl
    · rw [returnTest_staging]
      rfl

/-- The previous staged line that a stage step gives up, if the row had one and it was another. -/
def replaced (line : Nat) (m : MapUnit) (row : Nat) : Option Nat :=
  ((m.staged row).map fun e => e.line).filter fun p => p != line

theorem stageStep_givesBack (marks : List Bool) (set : SetId) (line : Nat) (m : MapUnit) (row : Nat) :
    m.GivesBack (stageStep marks set line m row) (fun n => marks.getD n false)
      ((replaced line m row).toList.filter (stageStep marks set line m row).unreferenced) := by
  unfold stageStep replaced
  cases m.staged row with
  | none => exact .nothing _ _
  | some e =>
    by_cases h : e.line = line
    · simp only [h, Option.map_some, Option.filter_some, bne_self_eq_false, if_true]
      exact .nothing _ _
    · simp only [h, Option.map_some, Option.filter_some, if_false, bne_iff_ne, ne_eq, not_false_eq_true, if_true]
      exact returnTest_givesBack marks _ e.line

theorem replaced_eq_some {line : Nat} {m : MapUnit} {row n : Nat} :
    replaced line m row = some n ↔ (∃ e, m.staged row = some e ∧ e.line = n) ∧ n ≠ line := by
  simp [replaced, Option.filter_eq_some_iff]

/-- The map books balance, and the line is one that something names. -/
def Names (line : Nat) (m : MapUnit) : Prop := m.Consistent ∧ m.unreferenced line = false

theorem Names.stageStep {m : MapUnit} {line row : Nat} (h : Names line m) (marks : List Bool) (set : SetId)
    (hl : line < Config.storeLines) (hr : row < Config.rows) : Names line (stageStep marks set line m row) := by
  obtain ⟨hc, hu⟩ := h
  have href : m.liveOf line ≠ 0 ∨ m.stageOf line ≠ 0 := by
    rw [← not_and_or, ← unreferenced_iff_counts, hu]
    simp
  refine ⟨hc.within.stageStep marks set hl hr (.inr ⟨rfl, href⟩), ?_⟩
  rw [← Bool.not_eq_true, unreferenced_iff_counts]
  exact fun h => stageStep_stageOf_pos hc marks set hl hr href h.2

/-- The stage step of a line that something names, as a step that goes row by row. -/
theorem stageStep_rowStep (marks : List Bool) (set : SetId) {line : Nat} (hl : line < Config.storeLines) :
    RowStep (Names line) (fun n => marks.getD n false) (stageStep marks set line) (replaced line) where
  keeps m r hm hr := hm.stageStep marks set hl hr
  others m r r' hm hr hne := by
    rw [replaced, stageStep_staged _ _ _ _ (by rw [hm.1.stageLength]; exact hr), if_neg hne, replaced]
  back m r _ _ := stageStep_givesBack marks set line m r
  left m r n hm hr := by
    have hst := stageStep_staged marks set line m (row := r) (by rw [hm.1.stageLength]; exact hr)
    have hlive : ∀ q, (MapUnit.stageStep marks set line m r).liveLine q = m.liveLine q := fun q => by
      rw [liveLine, stageStep_live, liveLine]
    rw [(hm.stageStep marks set hl hr).1.unreferenced_iff, ne_eq, replaced_eq_some]
    constructor
    · rintro ⟨hn, hg⟩
      have hline : line ≠ n := (hn r hr).2 ⟨line, set⟩ (by rw [hst, if_pos rfl])
      refine (hm.1.unreferenced_iff n).2 fun q hq => ⟨hlive q ▸ (hn q hq).1, fun e he hel => ?_⟩
      by_cases hqr : q = r
      · exact hg ⟨⟨e, hqr ▸ he, hel⟩, hline.symm⟩
      · exact (hn q hq).2 e (by rw [hst, if_neg hqr, he]) hel
    · intro hu
      have hn := (hm.1.unreferenced_iff n).1 hu
      have hline : line ≠ n := fun e => by rw [← e, hm.2] at hu; cases hu
      refine ⟨fun q hq => ⟨hlive q ▸ (hn q hq).1, fun e he => ?_⟩, fun h => ?_⟩
      · rw [hst] at he
        split at he
        · cases he
          exact hline
        · exact (hn q hq).2 e he
      · obtain ⟨⟨e, he, hel⟩, -⟩ := h
        exact (hn r hr).2 e he hel

/-! ## The rows of a window -/

theorem filter_allRows_window {top bottom : Nat} (h : top ≤ bottom) (hb : bottom < 240) :
    allRows.filter (fun r => decide (top ≤ r ∧ r ≤ bottom)) = List.range' top (bottom - top + 1) := by
  have hsorted : (allRows.filter fun r => decide (top ≤ r ∧ r ≤ bottom)).Pairwise (· < ·) :=
    List.pairwise_lt_range.filter _
  refine hsorted.eq_of_mem_iff (List.sortedLT_range' _ _ Nat.one_ne_zero).pairwise fun r => ?_
  rw [List.mem_filter, allRows, List.mem_range, List.mem_range'_1, decide_eq_true_eq, Config.rows]
  omega

/-! ## Unwinding (01 R16) -/

theorem unwindRow_live (marks : List Bool) (set : SetId) (m : MapUnit) (row : Nat) :
    (unwindRow marks set m row).live = m.live := by
  unfold unwindRow
  split
  · rw [returnTest_live]
    rfl
  · rfl

theorem unwindRow_fresh (marks : List Bool) (set : SetId) (m : MapUnit) (row : Nat) :
    (unwindRow marks set m row).fresh = m.fresh := by
  unfold unwindRow
  split
  · rw [returnTest_fresh]
    rfl
  · rfl

/-- A row's entry once a set has none of its own there. -/
def without (set : SetId) (o : Option StagedEntry) : Option StagedEntry :=
  if o.any (fun e => e.owner == set) then none else o

theorem without_of_ownLine_none {m : MapUnit} {set : SetId} {r : Nat} (h : m.ownLine set r = none) :
    without set (m.staged r) = m.staged r := by
  rw [without, ← ownLine_isSome, h]
  rfl

theorem without_of_ownLine_some {m : MapUnit} {set : SetId} {r n : Nat} (h : m.ownLine set r = some n) :
    without set (m.staged r) = none := by
  rw [without, ← ownLine_isSome, h]
  rfl

theorem unwindRow_of_none (marks : List Bool) {set : SetId} {m : MapUnit} {row : Nat}
    (h : m.ownLine set row = none) : unwindRow marks set m row = m := by
  rw [unwindRow, h]

theorem unwindRow_staging (marks : List Bool) {set : SetId} {m : MapUnit} {row p : Nat}
    (h : m.ownLine set row = some p) : (unwindRow marks set m row).staging = m.staging.set row none := by
  rw [unwindRow, h]
  exact returnTest_staging ..

theorem unwindRow_staged (marks : List Bool) (set : SetId) (m : MapUnit) {row : Nat} (h : row < m.staging.length)
    (r : Nat) : (unwindRow marks set m row).staged r = if r = row then without set (m.staged row) else m.staged r := by
  cases ho : m.ownLine set row with
  | none =>
    rw [unwindRow_of_none marks ho, without_of_ownLine_none ho]
    exact (ite_eq_right_iff.2 fun e => by rw [e]).symm
  | some p =>
    rw [without_of_ownLine_some ho, staged, unwindRow_staging marks ho]
    exact getD_set _ _ _ _ _ h

theorem unwindRow_givesBack (marks : List Bool) (set : SetId) (m : MapUnit) (row : Nat) :
    m.GivesBack (unwindRow marks set m row) (fun n => marks.getD n false)
      ((m.ownLine set row).toList.filter (unwindRow marks set m row).unreferenced) := by
  unfold unwindRow
  cases m.ownLine set row with
  | none => exact .nothing _ _
  | some p => exact returnTest_givesBack marks _ p

theorem ownLine_congr {m m' : MapUnit} (set : SetId) {r : Nat} (h : m'.staged r = m.staged r) :
    m'.ownLine set r = m.ownLine set r := by rw [ownLine_eq, h, ownLine_eq]

theorem unwindRow_rowStep (marks : List Bool) (set : SetId) :
    RowStep Consistent (fun n => marks.getD n false) (unwindRow marks set) (fun m => m.ownLine set) where
  keeps m r hm hr := hm.unwindRow marks set hr
  others m r r' hm hr hne :=
    ownLine_congr set (by rw [unwindRow_staged _ _ _ (by rw [hm.stageLength]; exact hr), if_neg hne])
  back m r _ _ := unwindRow_givesBack marks set m r
  left m r n hm hr := by
    have hst := unwindRow_staged marks set m (row := r) (by rw [hm.stageLength]; exact hr)
    have hlive : ∀ q, (MapUnit.unwindRow marks set m r).liveLine q = m.liveLine q := fun q => by
      rw [liveLine, unwindRow_live, liveLine]
    rw [(hm.unwindRow marks set hr).unreferenced_iff, hm.unreferenced_iff]
    constructor
    · rintro ⟨hn, hg⟩ q hq
      refine ⟨hlive q ▸ (hn q hq).1, fun e he hel => ?_⟩
      by_cases hqr : q = r
      · subst hqr
        cases ho : m.ownLine set q with
        | none => exact (hn q hq).2 e (by rw [hst, if_pos rfl, without_of_ownLine_none ho, he]) hel
        | some p =>
          obtain ⟨e', he', hp, -⟩ := ownLine_staged ho
          obtain rfl : e = e' := Option.some.inj (he.symm.trans he')
          exact hg (by rw [ho, ← hp, hel])
      · exact (hn q hq).2 e (by rw [hst, if_neg hqr, he]) hel
    · intro hn
      refine ⟨fun q hq => ⟨hlive q ▸ (hn q hq).1, fun e he => ?_⟩, fun h => ?_⟩
      · rw [hst] at he
        split at he
        · rename_i hqr
          subst hqr
          unfold without at he
          split at he
          · cases he
          · exact (hn q hq).2 e he
        · exact (hn q hq).2 e he
      · obtain ⟨e, he, hel, -⟩ := ownLine_staged h
        exact (hn r hr).2 e he hel

/-! ## Publication (01 R17) -/

/-- The old live line a published row gives up, if the staged line is another. -/
def published (set : SetId) (m : MapUnit) (r : Nat) : Option Nat :=
  (m.ownLine set r).bind fun n => if n = m.liveLine r then none else some (m.liveLine r)

/-- The staging entry and the live line of a row. -/
def rowOf (m : MapUnit) (r : Nat) : Option StagedEntry × Nat := (m.staged r, m.liveLine r)

/-- What publication makes of them. -/
def publishedRow (set : SetId) (row : Option StagedEntry × Nat) : Option StagedEntry × Nat :=
  (without set row.1, ((row.1.filter fun e => e.owner == set).map fun e => e.line).getD row.2)

theorem publishRow_of_none (marks : List Bool) {set : SetId} {m : MapUnit} {row : Nat}
    (h : m.ownLine set row = none) : publishRow marks set m row = m := by
  rw [publishRow, h]

theorem publishRow_staging (marks : List Bool) {set : SetId} {m : MapUnit} {row n : Nat}
    (h : m.ownLine set row = some n) : (publishRow marks set m row).staging = m.staging.set row none := by
  rw [publishRow, h]
  dsimp only
  split
  · rfl
  · exact returnTest_staging ..

theorem publishRow_liveLine (marks : List Bool) {set : SetId} {m : MapUnit} {row n : Nat}
    (h : m.ownLine set row = some n) (hl : row < m.live.length) (r : Nat) :
    (publishRow marks set m row).liveLine r = if r = row then n else m.liveLine r := by
  rw [publishRow, h]
  dsimp only
  split
  · rename_i hn
    show m.liveLine r = _
    split
    · rename_i e
      rw [e, hn]
    · rfl
  · rw [liveLine, returnTest_live]
    exact getD_set _ _ _ _ _ hl

theorem publishRow_rowOf (marks : List Bool) (set : SetId) (m : MapUnit) {row : Nat} (h : row < m.staging.length)
    (hl : row < m.live.length) (r : Nat) :
    (publishRow marks set m row).rowOf r = if r = row then publishedRow set (m.rowOf row) else m.rowOf r := by
  rw [publishedRow, rowOf, rowOf, rowOf]
  dsimp only
  rw [← ownLine_eq]
  cases ho : m.ownLine set row with
  | none =>
    rw [publishRow_of_none marks ho, without_of_ownLine_none ho]
    exact (ite_eq_right_iff.2 fun e => by rw [e]; rfl).symm
  | some n =>
    rw [without_of_ownLine_some ho, publishRow_liveLine marks ho hl, staged, publishRow_staging marks ho,
      getD_set _ _ _ _ _ h]
    split <;> rfl

theorem publishRow_givesBack (marks : List Bool) (set : SetId) (m : MapUnit) (row : Nat) :
    m.GivesBack (publishRow marks set m row) (fun n => marks.getD n false)
      ((published set m row).toList.filter (publishRow marks set m row).unreferenced) := by
  unfold publishRow published
  cases m.ownLine set row with
  | none => exact .nothing _ _
  | some n =>
    by_cases h : n = m.liveLine row
    · simp only [Option.bind_some, if_pos h]
      exact .nothing _ _
    · simp only [Option.bind_some, if_neg h]
      exact returnTest_givesBack marks _ (m.liveLine row)

theorem published_eq_some {set : SetId} {m : MapUnit} {r l : Nat} :
    published set m r = some l ↔ l = m.liveLine r ∧ ∃ n, m.ownLine set r = some n ∧ n ≠ m.liveLine r := by
  unfold published
  cases m.ownLine set r with
  | none => simp
  | some n => by_cases h : n = m.liveLine r <;> simp [h, eq_comm]

theorem publishRow_rowStep (marks : List Bool) (set : SetId) :
    RowStep Consistent (fun n => marks.getD n false) (publishRow marks set) (published set) where
  keeps m r hm hr := hm.publishRow marks set hr
  others m r r' hm hr hne := by
    have hrow := publishRow_rowOf marks set m (row := r) (by rw [hm.stageLength]; exact hr)
      (by rw [hm.liveLength]; exact hr) r'
    rw [if_neg hne] at hrow
    obtain ⟨hst, hlive⟩ := Prod.mk.inj hrow
    rw [published, ownLine_congr set hst, hlive, published]
  back m r _ _ := publishRow_givesBack marks set m r
  left m r l hm hr := by
    have hrow := publishRow_rowOf marks set m (row := r) (by rw [hm.stageLength]; exact hr)
      (by rw [hm.liveLength]; exact hr)
    rw [(hm.publishRow marks set hr).unreferenced_iff, hm.unreferenced_iff, ne_eq, published_eq_some]
    have hothers : ∀ q, q ≠ r → (MapUnit.publishRow marks set m r).staged q = m.staged q ∧
        (MapUnit.publishRow marks set m r).liveLine q = m.liveLine q := fun q hq =>
      Prod.mk.inj ((hrow q).trans (if_neg hq))
    cases ho : m.ownLine set r with
    | none => rw [publishRow_of_none marks ho]; simp
    | some n =>
      obtain ⟨e, he, hen, -⟩ := ownLine_staged ho
      obtain ⟨hst, -⟩ := Prod.mk.inj ((hrow r).trans (if_pos rfl))
      have hst : (MapUnit.publishRow marks set m r).staged r = none := hst.trans (without_of_ownLine_some ho)
      have hlive : (MapUnit.publishRow marks set m r).liveLine r = n :=
        (publishRow_liveLine marks ho (by rw [hm.liveLength]; exact hr) r).trans (if_pos rfl)
      constructor
      · rintro ⟨hn, hg⟩ q hq
        by_cases hqr : q = r
        · subst hqr
          have hnl : n ≠ l := hlive ▸ (hn q hq).1
          refine ⟨fun h => hg ⟨h.symm, n, rfl, h ▸ hnl⟩, fun e' he' => ?_⟩
          obtain rfl : e = e' := Option.some.inj (he.symm.trans he')
          exact hen ▸ hnl
        · obtain ⟨hs', hl'⟩ := hothers q hqr
          exact hs' ▸ hl' ▸ hn q hq
      · intro hn
        refine ⟨fun q hq => ?_, fun h => (hn r hr).1 h.1.symm⟩
        by_cases hqr : q = r
        · subst hqr
          rw [hlive, hst]
          exact ⟨hen ▸ (hn q hq).2 e he, nofun⟩
        · obtain ⟨hs', hl'⟩ := hothers q hqr
          rw [hs', hl']
          exact hn q hq

/-! ## The claims as a whole -/

theorem allRows_sorted : allRows.Pairwise (· < ·) := List.pairwise_lt_range

theorem mem_allRows {r : Nat} : r ∈ allRows ↔ r < Config.rows := List.mem_range

/-- A run over all rows leaves in each row what its step makes of it. -/
theorem foldl_allRows {γ : Type} (φ : MapUnit → Nat → γ) (v : Nat → γ → γ) {Inv : MapUnit → Prop}
    {f : MapUnit → Nat → MapUnit} (hI : ∀ m r, Inv m → r < Config.rows → Inv (f m r))
    (hf : ∀ m r r', Inv m → r < Config.rows → φ (f m r) r' = if r' = r then v r (φ m r) else φ m r')
    {m : MapUnit} (hm : Inv m) {r : Nat} (hr : r < Config.rows) : φ (allRows.foldl f m) r = v r (φ m r) := by
  rw [foldl_at_row φ v hI hf allRows_sorted.nodup allRows_lt hm r, if_pos (mem_allRows.2 hr)]

theorem afterUnwind_live (marks : List Bool) (m : MapUnit) (set : SetId) :
    (afterUnwind marks m set).live = m.live := foldl_same live (unwindRow_live marks set) allRows m

theorem afterUnwind_fresh (marks : List Bool) (m : MapUnit) (set : SetId) :
    (afterUnwind marks m set).fresh = m.fresh := foldl_same fresh (unwindRow_fresh marks set) allRows m

/-- 01 R16: the set's entries go, the others stay. -/
theorem Consistent.afterUnwind_staged {m : MapUnit} (h : m.Consistent) (marks : List Bool) (set : SetId) {r : Nat}
    (hr : r < Config.rows) : (MapUnit.afterUnwind marks m set).staged r = without set (m.staged r) :=
  foldl_allRows staged (fun _ => without set) (fun _ _ hm hr => hm.unwindRow marks set hr)
    (fun m _ r' hm hr => unwindRow_staged marks set m (by rw [hm.stageLength]; exact hr) r') h hr

theorem Consistent.afterUnwind_givesBack {m : MapUnit} (h : m.Consistent) (marks : List Bool) (set : SetId) :
    m.GivesBack (MapUnit.afterUnwind marks m set) (fun n => marks.getD n false)
      ((MapUnit.afterUnwind marks m set).linesLeft (m.ownLine set)) := by
  rw [linesLeft_eq]
  exact (unwindRow_rowStep marks set).foldl_givesBack allRows_sorted allRows_lt h

/-- The map-fresh flag apart, a publish claim is a run over all rows. -/
theorem afterPublish_eq (marks : List Bool) (m : MapUnit) (set : SetId) : ∃ fresh,
    afterPublish marks m set = { allRows.foldl (publishRow marks set) m with fresh := fresh } := ⟨_, rfl⟩

/-- 01 R17: what a publish claim makes of a row. -/
theorem Consistent.afterPublish_rowOf {m : MapUnit} (h : m.Consistent) (marks : List Bool) (set : SetId) {r : Nat}
    (hr : r < Config.rows) : (MapUnit.afterPublish marks m set).rowOf r = publishedRow set (m.rowOf r) := by
  have hrun := foldl_allRows rowOf (fun _ => publishedRow set) (fun _ _ hm hr => hm.publishRow marks set hr)
    (fun m _ r' hm hr => publishRow_rowOf marks set m (by rw [hm.stageLength]; exact hr)
      (by rw [hm.liveLength]; exact hr) r') h hr
  obtain ⟨fresh, hf⟩ := afterPublish_eq marks m set
  rw [hf]
  generalize allRows.foldl (MapUnit.publishRow marks set) m = m' at hrun ⊢
  exact hrun

theorem Consistent.afterPublish_staged {m : MapUnit} (h : m.Consistent) (marks : List Bool) (set : SetId) {r : Nat}
    (hr : r < Config.rows) : (MapUnit.afterPublish marks m set).staged r = without set (m.staged r) :=
  (Prod.mk.inj (h.afterPublish_rowOf marks set hr)).1

theorem Consistent.afterPublish_liveLine {m : MapUnit} (h : m.Consistent) (marks : List Bool) (set : SetId) {r : Nat}
    (hr : r < Config.rows) :
    (MapUnit.afterPublish marks m set).liveLine r = (m.ownLine set r).getD (m.liveLine r) := by
  rw [ownLine_eq]
  exact (Prod.mk.inj (h.afterPublish_rowOf marks set hr)).2

theorem Consistent.afterPublish_givesBack {m : MapUnit} (h : m.Consistent) (marks : List Bool) (set : SetId) :
    m.GivesBack (MapUnit.afterPublish marks m set) (fun n => marks.getD n false)
      ((MapUnit.afterPublish marks m set).linesLeft (published set m)) := by
  have hrun := (publishRow_rowStep marks set).foldl_givesBack allRows_sorted allRows_lt h
  obtain ⟨fresh, hf⟩ := afterPublish_eq marks m set
  rw [linesLeft_eq, hf]
  generalize allRows.foldl (MapUnit.publishRow marks set) m = m' at hrun ⊢
  exact hrun

/-- 01 R17: a publish claim changes a live entry when some row then shows another line. -/
theorem Consistent.publishChanges_eq {m : MapUnit} (h : m.Consistent) (marks : List Bool) (set : SetId) :
    m.publishChanges set =
      (List.range 240).any fun r => (MapUnit.afterPublish marks m set).liveLine r != m.liveLine r := by
  rw [Bool.eq_iff_iff, publishChanges, List.any_eq_true, List.any_eq_true]
  refine exists_congr fun r => and_congr_right fun hr => ?_
  rw [h.afterPublish_liveLine marks set (mem_allRows.1 hr)]
  cases m.ownLine set r <;> simp

/-- 01 R18: the map-fresh flag falls when a live entry changes. -/
theorem Consistent.afterPublish_fresh {m : MapUnit} (h : m.Consistent) (marks : List Bool) (set : SetId) :
    (MapUnit.afterPublish marks m set).fresh = true ↔
      m.fresh = true ∧ ∀ r, r < 240 → (MapUnit.afterPublish marks m set).liveLine r = m.liveLine r := by
  show (m.fresh && !m.publishChanges set) = true ↔ _
  rw [h.publishChanges_eq marks set, Bool.and_eq_true, Bool.not_eq_true', List.any_eq_false]
  simp

/-- 01 R14: a clean ALIAS_CLAIM over a window, as a run over all rows. -/
theorem afterAlias_window (marks : List Bool) (m : MapUnit) (set : SetId) {q top bottom : Nat} (hq : q < 240)
    (h : top ≤ bottom) (hb : bottom < 240) :
    afterAlias marks m set q (List.range' top (bottom - top + 1)) =
      allRows.foldl
        (fun m' r => if top ≤ r ∧ r ≤ bottom then stageStep marks set (m.view set q) m' r else m') m := by
  have hrows : (List.range' top (bottom - top + 1)).filter hasRow = List.range' top (bottom - top + 1) :=
    List.filter_eq_self.2 fun r hr => by
      rw [List.mem_range'_1] at hr
      have : r < 240 := by omega
      simpa [hasRow] using this
  rw [afterAlias, if_pos (by simpa [hasRow] using hq), hrows, ← filter_allRows_window h hb, List.foldl_filter]
  simp only [decide_eq_true_eq]

/-- The view of a row is a line that something names. -/
theorem Consistent.view_names {m : MapUnit} (h : m.Consistent) (set : SetId) {q : Nat} (hq : q < Config.rows) :
    Names (m.view set q) m := by
  refine ⟨h, ?_⟩
  rw [← Bool.not_eq_true, unreferenced_iff_counts, not_and_or]
  exact (h.view_referenced set hq).2

theorem Consistent.afterAlias_staged {m : MapUnit} (h : m.Consistent) (marks : List Bool) (set : SetId)
    {q top bottom r : Nat} (hq : q < 240) (ht : top ≤ bottom) (hb : bottom < 240) (hr : r < 240) :
    (MapUnit.afterAlias marks m set q (List.range' top (bottom - top + 1))).staged r =
      if top ≤ r ∧ r ≤ bottom then some ⟨m.view set q, set⟩ else m.staged r := by
  have hl := (h.view_referenced set hq).1
  rw [afterAlias_window marks m set hq ht hb]
  refine foldl_allRows staged
    (fun r o => if top ≤ r ∧ r ≤ bottom then some ⟨m.view set q, set⟩ else o)
    ((stageStep_rowStep marks set hl).restrict fun r => top ≤ r ∧ r ≤ bottom).keeps
    (fun m' r r' hm hr => ?_) (h.view_names set hq) hr
  by_cases hw : top ≤ r ∧ r ≤ bottom
  · simp only [if_pos hw]
    exact stageStep_staged marks set _ m' (by rw [hm.1.stageLength]; exact hr) r'
  · simp only [if_neg hw]
    exact (ite_eq_right_iff.2 fun e => by rw [e]).symm

theorem Consistent.afterAlias_givesBack {m : MapUnit} (h : m.Consistent) (marks : List Bool) (set : SetId)
    {q top bottom : Nat} (hq : q < 240) (ht : top ≤ bottom) (hb : bottom < 240) :
    m.GivesBack (MapUnit.afterAlias marks m set q (List.range' top (bottom - top + 1))) (fun n => marks.getD n false)
      ((MapUnit.afterAlias marks m set q (List.range' top (bottom - top + 1))).linesLeft fun r =>
        if top ≤ r ∧ r ≤ bottom then replaced (m.view set q) m r else none) := by
  rw [linesLeft_eq, afterAlias_window marks m set hq ht hb]
  exact ((stageStep_rowStep marks set (h.view_referenced set hq).1).restrict
    fun r => top ≤ r ∧ r ≤ bottom).foldl_givesBack allRows_sorted allRows_lt (h.view_names set hq)

theorem afterAlias_live (marks : List Bool) (m : MapUnit) (set : SetId) (q : Nat) (rows : List Nat) :
    (afterAlias marks m set q rows).live = m.live := by
  unfold afterAlias
  split
  · exact foldl_same live (stageStep_live marks set _) _ m
  · rfl

theorem afterAlias_fresh (marks : List Bool) (m : MapUnit) (set : SetId) (q : Nat) (rows : List Nat) :
    (afterAlias marks m set q rows).fresh = m.fresh := by
  unfold afterAlias
  split
  · exact foldl_same fresh (stageStep_fresh marks set _) _ m
  · rfl

/-! ## The write claim (01 R13) -/

theorem afterWrite_live (marks : List Bool) (m : MapUnit) (set : SetId) (row : Nat) :
    (afterWrite marks m set row).live = m.live := by
  unfold afterWrite
  split
  · split
    · rfl
    · exact stageStep_live ..
    · rfl
  · rfl

theorem privateLine_eq_none {m : MapUnit} {set : SetId} {row : Nat} :
    m.privateLine set row = none ↔ ∀ p, m.ownLine set row = some p → ¬(m.liveOf p = 0 ∧ m.stageOf p = 1) := by
  unfold privateLine
  cases m.ownLine set row <;> simp

theorem privateLine_eq_some {m : MapUnit} {set : SetId} {row p : Nat} (ho : m.ownLine set row = some p)
    (hl : m.liveOf p = 0) (hs : m.stageOf p = 1) : m.privateLine set row = some p := by
  rw [privateLine, ho]
  exact if_pos ⟨hl, hs⟩

theorem afterWrite_inPlace (marks : List Bool) {m : MapUnit} {set : SetId} {row p : Nat}
    (h : m.privateLine set row = some p) : afterWrite marks m set row = m := by
  rw [afterWrite, h]
  exact ite_self m

theorem afterWrite_noRoom (marks : List Bool) {m : MapUnit} {set : SetId} {row : Nat}
    (h : m.privateLine set row = none) (hp : m.pool = []) : afterWrite marks m set row = m := by
  rw [afterWrite, h, hp]
  exact ite_self m

theorem afterWrite_copy (marks : List Bool) {m : MapUnit} {set : SetId} {row n : Nat} {rest : List Nat}
    (h : m.privateLine set row = none) (hp : m.pool = n :: rest) (hr : row < 240) :
    afterWrite marks m set row = stageStep marks set n { m with pool := rest } row := by
  rw [afterWrite, h, hp, if_pos (by simpa [hasRow] using hr)]

theorem raiseStage_stageOf {m : MapUnit} {line : Nat} (h : line < m.stageCount.length) (n : Nat) :
    (m.raiseStage line).stageOf n = if n = line then m.stageOf line + 1 else m.stageOf n := getD_set _ _ _ _ _ h

theorem lowerStage_stageOf {m : MapUnit} {line : Nat} (h : line < m.stageCount.length) (n : Nat) :
    (m.lowerStage line).stageOf n = if n = line then m.stageOf line - 1 else m.stageOf n := getD_set _ _ _ _ _ h

/-- 01 R13: a copy returns no line, for the line that the row gives up is still named by something else. -/
theorem Consistent.copy_returnsNothing {m : MapUnit} (h : m.Consistent) (marks : List Bool) {set : SetId}
    {row n : Nat} {rest : List Nat} (hp : m.pool = n :: rest) (hown : ∀ e, m.staged row = some e → e.owner = set)
    (hno : m.privateLine set row = none) :
    (stageStep marks set n { m with pool := rest } row).pool = rest ∧
      (stageStep marks set n { m with pool := rest } row).damaged = m.damaged := by
  obtain ⟨-, hn, -⟩ := h.popped hp
  unfold MapUnit.stageStep
  rw [show ({ m with pool := rest } : MapUnit).staged row = m.staged row from rfl]
  cases hs : m.staged row with
  | none => exact ⟨rfl, rfl⟩
  | some e =>
    dsimp only
    split
    · exact ⟨rfl, rfl⟩
    · rename_i hne
      obtain ⟨he, hpos⟩ := h.staged_referenced hs
      have ho := ownLine_of_staged hs (hown e hs)
      have hnot := privateLine_eq_none.1 hno e.line ho
      generalize hm' : (({ m with pool := rest } : MapUnit).raiseStage n).putStaged row (some ⟨n, set⟩) = m'
      have hlen : m'.stageCount.length = Config.storeLines := by
        rw [← hm']
        exact (List.length_set ..).trans h.stageCounts
      have hbefore : m'.stageOf e.line = m.stageOf e.line := by
        rw [← hm']
        exact (raiseStage_stageOf (m := { m with pool := rest }) (h.stageCounts ▸ hn) e.line).trans (if_neg hne)
      have hlive : (m'.lowerStage e.line).liveOf e.line = m.liveOf e.line := by rw [← hm']; rfl
      have hstill : ¬(m'.lowerStage e.line).unreferenced e.line = true := by
        rw [unreferenced_iff_counts, lowerStage_stageOf (hlen ▸ he), if_pos rfl, hbefore, hlive]
        omega
      rw [returnTest, if_neg hstill, ← hm']
      exact ⟨rfl, rfl⟩

/-! ## The shift claim (01 R15) -/

/-- A step changes neither the live map, the map-fresh flag, the free pool nor the damaged list. -/
structure SamePlaces (m m' : MapUnit) : Prop where
  live    : m'.live = m.live
  fresh   : m'.fresh = m.fresh
  pool    : m'.pool = m.pool
  damaged : m'.damaged = m.damaged

theorem SamePlaces.foldl {β : Type} {f : MapUnit → β → MapUnit} (hf : ∀ m b, SamePlaces m (f m b)) (bs : List β)
    (m : MapUnit) : SamePlaces m (bs.foldl f m) :=
  ⟨foldl_same MapUnit.live (fun m b => (hf m b).live) bs m, foldl_same MapUnit.fresh (fun m b => (hf m b).fresh) bs m,
    foldl_same MapUnit.pool (fun m b => (hf m b).pool) bs m,
    foldl_same MapUnit.damaged (fun m b => (hf m b).damaged) bs m⟩

theorem shiftRaise_samePlaces (m : MapUnit) (mv : Nat × Nat) : SamePlaces m (shiftRaise m mv) := by
  unfold shiftRaise
  split
  · split <;> exact ⟨rfl, rfl, rfl, rfl⟩
  · exact ⟨rfl, rfl, rfl, rfl⟩

/-- 01 R15, steps 1 and 2: raising and staging return nothing. -/
theorem shiftStaged_samePlaces (m : MapUnit) (set : SetId) (moves : List (Nat × Nat)) :
    SamePlaces m (moves.foldl (fun m' mv => m'.putStaged mv.1 (some ⟨mv.2, set⟩)) (moves.foldl shiftRaise m)) := by
  have hraise := SamePlaces.foldl shiftRaise_samePlaces moves m
  have hput := SamePlaces.foldl (f := fun m' mv => m'.putStaged mv.1 (some ⟨mv.2, set⟩))
    (fun _ _ => ⟨rfl, rfl, rfl, rfl⟩) moves (moves.foldl shiftRaise m)
  exact ⟨hput.live.trans hraise.live, hput.fresh.trans hraise.fresh, hput.pool.trans hraise.pool,
    hput.damaged.trans hraise.damaged⟩

theorem shiftLower_eq (marks : List Bool) (before m : MapUnit) (mv : Nat × Nat) :
    shiftLower marks before m mv =
      match before.lowered mv with
      | some l => returnTest marks (m.lowerStage l) l
      | none => m := by
  unfold shiftLower lowered
  cases before.staged mv.1 with
  | none => rfl
  | some e => by_cases h : e.line = mv.2 <;> simp [h]

theorem shiftLower_staging (marks : List Bool) (before m : MapUnit) (mv : Nat × Nat) :
    (shiftLower marks before m mv).staging = m.staging := by
  rw [shiftLower_eq]
  split
  · exact returnTest_staging ..
  · rfl

theorem shiftLower_live (marks : List Bool) (before m : MapUnit) (mv : Nat × Nat) :
    (shiftLower marks before m mv).live = m.live := by
  rw [shiftLower_eq]
  split
  · exact returnTest_live ..
  · rfl

theorem shiftLower_fresh (marks : List Bool) (before m : MapUnit) (mv : Nat × Nat) :
    (shiftLower marks before m mv).fresh = m.fresh := by
  rw [shiftLower_eq]
  split
  · exact returnTest_fresh ..
  · rfl

/-- 01 R15, step 4: the lines a shift claim could return are among those it lowered. -/
theorem foldl_shiftLower_givesBack (marks : List Bool) (before : MapUnit) (moves : List (Nat × Nat)) (m : MapUnit) :
    ∃ lines, m.GivesBack (moves.foldl (shiftLower marks before) m) (fun n => marks.getD n false) lines ∧
      ∀ l ∈ lines, ∃ mv ∈ moves, before.lowered mv = some l := by
  induction moves generalizing m with
  | nil => exact ⟨[], .nothing m _, by simp⟩
  | cons mv moves ih =>
    obtain ⟨lines, hback, hlow⟩ := ih (shiftLower marks before m mv)
    have hstep : m.GivesBack (shiftLower marks before m mv) (fun n => marks.getD n false)
        ((before.lowered mv).toList.filter (shiftLower marks before m mv).unreferenced) := by
      rw [shiftLower_eq]
      cases before.lowered mv with
      | none => exact .nothing m _
      | some l => exact returnTest_givesBack marks _ l
    refine ⟨_, hstep.append hback, fun l hl => ?_⟩
    rcases List.mem_append.1 hl with hl | hl
    · exact ⟨mv, List.mem_cons_self, Option.mem_toList.1 (List.mem_filter.1 hl).1⟩
    · obtain ⟨mv', hmv', h⟩ := hlow l hl
      exact ⟨mv', List.mem_cons_of_mem mv hmv', h⟩

theorem afterMoves_live (marks : List Bool) (m : MapUnit) (set : SetId) (moves : List (Nat × Nat)) :
    (afterMoves marks m set moves).live = m.live := by
  rw [afterMoves, foldl_same live (shiftLower_live marks m), (shiftStaged_samePlaces m set moves).live]

theorem afterMoves_fresh (marks : List Bool) (m : MapUnit) (set : SetId) (moves : List (Nat × Nat)) :
    (afterMoves marks m set moves).fresh = m.fresh := by
  rw [afterMoves, foldl_same fresh (shiftLower_fresh marks m), (shiftStaged_samePlaces m set moves).fresh]

theorem afterMoves_givesBack (marks : List Bool) (m : MapUnit) (set : SetId) (moves : List (Nat × Nat)) :
    ∃ lines, m.GivesBack (afterMoves marks m set moves) (fun n => marks.getD n false) lines ∧
      ∀ l ∈ lines, ∃ mv ∈ moves, m.lowered mv = some l := by
  obtain ⟨lines, hback, hlow⟩ := foldl_shiftLower_givesBack marks m moves
    (moves.foldl (fun m' mv => m'.putStaged mv.1 (some ⟨mv.2, set⟩)) (moves.foldl shiftRaise m))
  have hplaces := shiftStaged_samePlaces m set moves
  refine ⟨lines, ?_, hlow⟩
  rw [GivesBack, hplaces.pool, hplaces.damaged] at hback
  exact hback

theorem afterMoves_staged (marks : List Bool) {m : MapUnit} (hlen : m.staging.length = Config.rows) (set : SetId)
    {rows : List Nat} (hd : rows.Nodup) (hr : ∀ r ∈ rows, r < Config.rows) (line : Nat → Nat) (r : Nat) :
    (afterMoves marks m set (rows.map fun r => (r, line r))).staged r =
      if r ∈ rows then some ⟨line r, set⟩ else m.staged r := by
  have hraise : ((rows.map fun r => (r, line r)).foldl shiftRaise m).staging = m.staging :=
    foldl_shiftRaise_staging _ m
  have hput := foldl_at_row staged (fun r _ => some ⟨line r, set⟩) (Inv := fun m' => m'.staging.length = Config.rows)
    (f := fun m' r => m'.putStaged r (some ⟨line r, set⟩)) (fun m' r h _ => (List.length_set ..).trans h)
    (fun m' r r' h hr => staged_putStaged r _ (h ▸ hr) r') hd hr (hraise ▸ hlen) r
  rw [afterMoves, staged, foldl_same staging (shiftLower_staging marks m), List.foldl_map]
  refine hput.trans ?_
  rw [staged, hraise, staged]

/-- 01 R15: the rotation of a window takes every row of it to a row of it. -/
theorem exists_shiftSource_eq {row0 height row : Nat} (d : Int) (hlo : row0 ≤ row) (hhi : row < row0 + height) :
    ∃ r, row0 ≤ r ∧ r < row0 + height ∧ shiftSource row0 height d r = row := by
  have hh : 0 < height := by omega
  refine ⟨shiftSource row0 height (-d) row, Nat.le_add_right .., shiftSource_lt row0 height (-d) row hh, ?_⟩
  have hpos : 0 ≤ ((row : Int) - row0 + -d) % height := Int.emod_nonneg _ (by omega)
  have hback : (((row : Int) - row0 + -d) % height + d) % height = row - row0 := by
    rw [Int.emod_add_emod, Int.neg_add_cancel_right, Int.emod_eq_of_lt (by omega) (by omega)]
  unfold shiftSource
  push_cast
  rw [Int.toNat_of_nonneg hpos, add_sub_cancel_left, hback]
  omega

theorem afterShift_live (marks : List Bool) (m : MapUnit) (set : SetId) (row0 height : Nat) (d : Int) :
    (afterShift marks m set row0 height d).live = m.live := afterMoves_live ..

theorem afterShift_fresh (marks : List Bool) (m : MapUnit) (set : SetId) (row0 height : Nat) (d : Int) :
    (afterShift marks m set row0 height d).fresh = m.fresh := afterMoves_fresh ..

/-- 01 R15: each row of the window gets the line its source row showed; the others stay. -/
theorem afterShift_staged (marks : List Bool) {m : MapUnit} (hlen : m.staging.length = Config.rows) (set : SetId)
    {row0 height : Nat} (d : Int) (hh : row0 + height ≤ Config.rows) (r : Nat) :
    (afterShift marks m set row0 height d).staged r =
      if row0 ≤ r ∧ r < row0 + height then some ⟨m.view set (shiftSource row0 height d r), set⟩ else m.staged r := by
  rw [afterShift, shiftMoves, if_pos hh, afterMoves_staged marks hlen set List.nodup_range'
    (fun r hr => by rw [List.mem_range'_1] at hr; omega)]
  simp only [List.mem_range'_1]

/-- 01 R15: a shift claim returns no line: every line it lowers is staged again on the row that receives it. -/
theorem Consistent.afterShift_returnsNothing {m : MapUnit} (h : m.Consistent) (marks : List Bool) {set : SetId}
    {row0 height : Nat} (d : Int) (hh : row0 + height ≤ Config.rows)
    (hown : ∀ r e, row0 ≤ r → r < row0 + height → m.staged r = some e → e.owner = set) :
    (MapUnit.afterShift marks m set row0 height d).pool = m.pool ∧
      (MapUnit.afterShift marks m set row0 height d).damaged = m.damaged := by
  have hafter := h.afterShift marks set row0 height d
  obtain ⟨lines, ⟨hpool, hdamaged⟩, hlow⟩ := afterMoves_givesBack marks m set (m.shiftMoves set row0 height d)
  rw [← MapUnit.afterShift] at hpool hdamaged
  have hnone : lines = [] := by
    refine List.eq_nil_iff_forall_not_mem.2 fun l hl => ?_
    have hstands : l ∈ (MapUnit.afterShift marks m set row0 height d).pool ++
        (MapUnit.afterShift marks m set row0 height d).damaged := by
      rw [hpool, hdamaged]
      cases hm : marks.getD l false
      · simp [hl, hm, -List.getD_eq_getElem?_getD]
      · simp [hl, hm, -List.getD_eq_getElem?_getD]
    obtain ⟨-, hu⟩ := (hafter.standsWhere l).1 hstands
    have hn := (hafter.unreferenced_iff l).1 ((unreferenced_iff_counts _ l).2 hu)
    obtain ⟨mv, hmv, hmvl⟩ := hlow l hl
    rw [shiftMoves, if_pos hh] at hmv
    obtain ⟨row, hrow, rfl⟩ := List.mem_map.1 hmv
    rw [List.mem_range'_1] at hrow
    obtain ⟨e, he, hel⟩ : ∃ e, m.staged row = some e ∧ e.line = l := by
      unfold lowered at hmvl
      cases hs : m.staged row with
      | none => rw [hs] at hmvl; cases hmvl
      | some e =>
        rw [hs] at hmvl
        dsimp only at hmvl
        split at hmvl
        · cases hmvl
        · exact ⟨e, rfl, Option.some.inj hmvl⟩
    have hview : m.view set row = l := by
      rw [view, ownLine_of_staged he (hown row e hrow.1 hrow.2 he), Option.getD_some, hel]
    obtain ⟨r, hlo, hhi, hsrc⟩ := exists_shiftSource_eq d hrow.1 hrow.2
    refine (hn r (by omega)).2 ⟨l, set⟩ ?_ rfl
    rw [afterShift_staged marks h.stageLength set d hh, if_pos ⟨hlo, hhi⟩, hsrc, hview]
  simp [hpool, hdamaged, hnone]

theorem afterMark_live (m : MapUnit) (line : Nat) : (m.afterMark line).live = m.live := by
  unfold afterMark
  split <;> rfl

/-- A row outside the map holds no entry. -/
theorem Consistent.staged_outside {m : MapUnit} (h : m.Consistent) {r : Nat} (hr : 240 ≤ r) : m.staged r = none :=
  List.getD_eq_default _ _ (by rw [h.stageLength]; exact hr)

end Sys2Proof.Machine.MapUnit
end

section
/-! SUPPORT. What the commands that reach the stores do to the map's books, the Line Store's count, the frame count and
memory; and from it what every step keeps. -/

namespace Sys2Proof.Machine

/-! ## The marks a claim goes by, and a read served -/

/-- The marks the Map Unit's claims go by are those known (01 R19). -/
theorem knownMarks_eq (s : State) : (fun n => s.knownMarks.getD n false) = s.markKnown := funext (knownMarks_getD s)

theorem reportMark_map (s : State) (line n : Nat) : (s.reportMark line n).map = s.map := by
  unfold State.reportMark
  dsimp only
  split <;> rfl

theorem reportMark_scan (s : State) (line n : Nat) : (s.reportMark line n).scan = s.scan := by
  unfold State.reportMark
  dsimp only
  split <;> rfl

@[simp] theorem serveRead_map (s : State) (n : Nat) (flaws : List (Nat × Flaw)) : (s.serveRead n flaws).map = s.map := by
  unfold State.serveRead
  split
  · exact reportMark_map _ _ _
  all_goals rfl

@[simp] theorem serveRead_scan (s : State) (n : Nat) (flaws : List (Nat × Flaw)) :
    (s.serveRead n flaws).scan = s.scan := by
  unfold State.serveRead
  split
  · exact reportMark_scan _ _ _
  all_goals rfl

/-! ## What every command but a reset, a publication and a row output keeps -/

/-- `t` has the live map and the frame count of `s`, and each of its books is in order if that of `s` is. -/
structure State.KeepsBooks (s t : State) : Prop where
  live       : t.map.live = s.map.live
  map        : s.map.Consistent → t.map.Consistent
  store      : s.store.Consistent → t.store.Consistent
  frameCount : t.scan.frameCount = s.scan.frameCount
  mem        : Memory.wf s.mem = true → Memory.wf t.mem = true

theorem State.Spares.keepsBooks {s t : State} (h : s.Spares t) : s.KeepsBooks t :=
  ⟨by rw [h.map], fun hm => h.map ▸ hm, fun hs => h.store ▸ hs, h.frameCount, h.mem⟩

theorem State.KeepsBooks.refl (s : State) : s.KeepsBooks s := (State.Spares.refl s).keepsBooks

theorem State.KeepsBooks.trans {s t u : State} (h : s.KeepsBooks t) (h' : t.KeepsBooks u) : s.KeepsBooks u :=
  ⟨h'.live.trans h.live, h'.map ∘ h.map, h'.store ∘ h.store, h'.frameCount.trans h.frameCount, h'.mem ∘ h.mem⟩

variable (s : State)

/-- A claim that only replaces the map and the engine's link. -/
theorem keepsBooks_claim {m : MapUnit} (k : EngineLink) (hl : m.live = s.map.live)
    (hc : s.map.Consistent → m.Consistent) : s.KeepsBooks ({ s with map := m }.setLink k) := ⟨hl, hc, id, rfl, id⟩

theorem keepsBooks_serveRead (n : Nat) (flaws : List (Nat × Flaw)) : s.KeepsBooks (s.serveRead n flaws) :=
  ⟨by rw [serveRead_map], fun h => by rw [serveRead_map]; exact h, fun h => State.serveRead_store_consistent h n flaws,
    by rw [serveRead_scan], fun h => (keeps_serveRead s n flaws).mem ▸ h⟩

theorem keepsBooks_execWriteClaim {t : State} (e : execWriteClaim s = .next t) : s.KeepsBooks t := by
  obtain rfl := Host.Outcome.next.inj e
  split
  · exact keepsBooks_claim s _ (MapUnit.afterWrite_live ..) (·.afterWrite _ _ _)
  · exact .refl s

theorem keepsBooks_execAliasClaim (flaws : List (Nat × Flaw)) {t : State} (e : execAliasClaim flaws s = .next t) :
    s.KeepsBooks t := by
  obtain rfl := Host.Outcome.next.inj e
  split
  · split
    · exact .refl s
    · dsimp only
      split
      · exact (keepsBooks_serveRead s _ flaws).trans (spares_setLink _ _).keepsBooks
      · exact (keepsBooks_serveRead s _ flaws).trans
          (keepsBooks_claim _ _ (MapUnit.afterAlias_live ..) (·.afterAlias _ _ _ _))
  · exact .refl s

theorem keepsBooks_execShiftClaim {t : State} (e : execShiftClaim s = .next t) : s.KeepsBooks t := by
  obtain rfl := Host.Outcome.next.inj e
  split
  · split
    · exact .refl s
    · exact keepsBooks_claim s _ (MapUnit.afterShift_live ..) (·.afterShift _ _ _ _ _)
  · exact .refl s

theorem keepsBooks_execUnwindClaim {t : State} (e : execUnwindClaim s = .next t) : s.KeepsBooks t := by
  obtain rfl := Host.Outcome.next.inj e
  split
  · exact keepsBooks_claim s _ (MapUnit.afterUnwind_live ..) (·.afterUnwind _ _)
  · exact .refl s

theorem keepsBooks_execMarkNotice {t : State} (e : execMarkNotice s = .next t) : s.KeepsBooks t := by
  obtain rfl := Host.Outcome.next.inj e
  split
  · exact .refl s
  · exact ⟨MapUnit.afterMark_live .., (·.afterMark _), id, rfl, id⟩

theorem keepsBooks_execLineRead (reader : LineReader) (flaws : List (Nat × Flaw)) {t : State}
    (e : execLineRead reader flaws s = .next t) : s.KeepsBooks t := by
  obtain rfl := Host.Outcome.next.inj e
  split
  · split
    · exact (keepsBooks_serveRead s _ flaws).trans (spares_setLink _ _).keepsBooks
    · exact (keepsBooks_serveRead s _ flaws).trans (spares_setLink _ _).keepsBooks
    · exact .refl s
  · split
    · exact (keepsBooks_serveRead s _ flaws).trans ⟨rfl, id, id, rfl, id⟩
    · exact .refl s

theorem keepsBooks_execWholeLineWrite (writer : LineWriter) {t : State} (e : execWholeLineWrite writer s = .next t) :
    s.KeepsBooks t := by
  obtain rfl := Host.Outcome.next.inj e
  split
  · split
    · exact ⟨rfl, id, (·.writeWhole _ _), rfl, id⟩
    · exact .refl s
  · split
    · exact ⟨rfl, id, (·.writeWhole _ _), rfl, id⟩
    · exact .refl s

theorem keepsBooks_execSpanWrite {t : State} (e : execSpanWrite s = .next t) : s.KeepsBooks t := by
  obtain rfl := Host.Outcome.next.inj e
  split
  · exact ⟨rfl, id, (·.writeSpan _), rfl, id⟩
  · exact .refl s

/-- 09 R160, log 12: a CMD write of a code other than RESET. -/
theorem keepsBooks_execEnableWrite (value : Word) (h : Instr.isReset (.enableWrite value) = false) {t : State}
    (e : execEnableWrite value s = .next t) : s.KeepsBooks t := by
  obtain rfl := Host.Outcome.next.inj e
  have hcode : ¬value.extractLsb' 0 4 = 5#4 := by simpa [Instr.isReset] using h
  rw [if_neg hcode]
  refine (spares_ite (.refl s) ?_).keepsBooks
  split
  · exact .after (spares_commandArrives _ _) ⟨rfl, rfl, rfl, id⟩
  · exact ⟨rfl, rfl, rfl, id⟩

theorem exec_keepsBooks {c : Instr} {t : State} (hreset : c.isReset = false) (hpub : c ≠ .publishClaim)
    (hrow : ∀ moment, c ≠ .rowOutput moment) (e : exec c s = .next t) : s.KeepsBooks t := by
  cases hc : reachesStores c with
  | false => exact ((exec_spares s c hc).spares e).keepsBooks
  | true =>
    cases c with
    | enableWrite value => exact keepsBooks_execEnableWrite s value hreset e
    | writeClaim => exact keepsBooks_execWriteClaim s e
    | aliasClaim flaws => exact keepsBooks_execAliasClaim s flaws e
    | shiftClaim => exact keepsBooks_execShiftClaim s e
    | unwindClaim => exact keepsBooks_execUnwindClaim s e
    | markNotice => exact keepsBooks_execMarkNotice s e
    | lineRead reader flaws => exact keepsBooks_execLineRead s reader flaws e
    | wholeLineWrite writer => exact keepsBooks_execWholeLineWrite s writer e
    | spanWrite => exact keepsBooks_execSpanWrite s e
    | rowOutput moment => exact absurd rfl (hrow moment)
    | publishClaim => exact absurd rfl hpub
    | powerOnReset _ | reset _ | resetPinAsserted _ => cases hreset
    | _ => cases hc

/-! ## Publication, row output and reset -/

/-- PUBLISH_CLAIM changes the live map and keeps everything else in order. -/
theorem execPublishClaim_keeps {t : State} (e : execPublishClaim s = .next t) :
    (s.map.Consistent → t.map.Consistent) ∧ t.store = s.store ∧ t.scan = s.scan ∧ t.mem = s.mem := by
  obtain rfl := Host.Outcome.next.inj e
  split
  · exact ⟨id, rfl, rfl, rfl⟩
  · exact ⟨(·.afterPublish _ _), rfl, rfl, rfl⟩

/-- The end of a row leaves map, line store and memory, and counts a frame after the last row while scanning. -/
theorem afterRow_cases (row : Nat) :
    (s.afterRow row).map = s.map ∧ (s.afterRow row).store = s.store ∧ (s.afterRow row).mem = s.mem ∧
      ((s.afterRow row).scan.frameCount = s.scan.frameCount ∨
        239 ≤ row ∧ s.scan.mode ≠ .still ∧ (s.afterRow row).scan.frameCount = s.scan.frameCount + 1) := by
  unfold State.afterRow
  split
  · exact ⟨rfl, rfl, rfl, .inl rfl⟩
  · rename_i hmode
    split
    · exact ⟨rfl, rfl, rfl, .inl rfl⟩
    · rename_i hrow
      have hlast : ¬row + 1 < 240 := hrow
      exact ⟨rfl, rfl, rfl, .inr ⟨by omega, hmode, rfl⟩⟩

theorem reportRowDamage_eq (row : Nat) : ∃ mail, s.reportRowDamage row = { s with mail := mail } := by
  unfold State.reportRowDamage
  split
  · exact ⟨_, rfl⟩
  · exact ⟨s.mail, rfl⟩

/-- ROW_OUTPUT (04 R79): the frame count alone may change, by the output of the last row. -/
theorem execRowOutput_cases {moment : Nat} {t : State} (e : execRowOutput moment s = .next t) :
    t.map = s.map ∧ t.store = s.store ∧ t.mem = s.mem ∧
      (t.scan.frameCount = s.scan.frameCount ∨
        (∃ row, s.scan.row = some row ∧ 239 ≤ row) ∧ s.scan.mode ≠ .still ∧
          t.scan.frameCount = s.scan.frameCount + 1) := by
  obtain rfl := Host.Outcome.next.inj e
  split
  · rename_i row vs hrow _
    split
    · obtain ⟨mail, hm⟩ := reportRowDamage_eq
        { s with now := max s.now moment, scan := { s.scan with output := .row row vs } } row
      rw [hm]
      obtain ⟨hmap, hstore, hmem, hframe⟩ := afterRow_cases
        { s with now := max s.now moment, scan := { s.scan with output := .row row vs }, mail := mail } row
      exact ⟨hmap, hstore, hmem, hframe.imp id fun ⟨hlast, hmode, hcount⟩ => ⟨⟨row, hrow, hlast⟩, hmode, hcount⟩⟩
    · exact ⟨rfl, rfl, rfl, .inl rfl⟩
  · exact ⟨rfl, rfl, rfl, .inl rfl⟩

/-- `t` is what a reset makes of `s`, as far as the map, the scan unit, the line store and memory go. -/
structure State.ResetsTo (s t : State) : Prop where
  map   : t.map = .reset
  scan  : t.scan = .reset
  store : s.store.Consistent → t.store.Consistent
  mem   : Memory.wf s.mem = true → Memory.wf t.mem = true

theorem resetsTo_softReset (begun : Begun) : s.ResetsTo (s.completeBegun begun).softReset := by
  have h := spares_completeBegun s begun
  exact ⟨rfl, rfl, fun hs => (h.store ▸ hs : (s.completeBegun begun).store.Consistent).softReset, h.mem⟩

/-- A reset is ignored while the pin is held, or brings the reset values. -/
theorem exec_reset_cases {c : Instr} {t : State} (hreset : c.isReset = true) (e : exec c s = .next t) :
    t = s ∨ s.ResetsTo t := by
  cases c with
  | powerOnReset begun =>
    obtain rfl := Host.Outcome.next.inj e
    exact .inr ⟨rfl, rfl, fun _ => LineStore.reset_consistent _, (resetsTo_softReset s begun).mem⟩
  | reset begun =>
    obtain rfl := Host.Outcome.next.inj e
    split
    · exact .inl rfl
    · exact .inr (resetsTo_softReset s begun)
  | resetPinAsserted begun =>
    obtain rfl := Host.Outcome.next.inj e
    obtain ⟨hmap, hscan, hstore, hmem⟩ := resetsTo_softReset s begun
    exact .inr ⟨hmap, hscan, hstore, hmem⟩
  | enableWrite value =>
    obtain rfl := Host.Outcome.next.inj e
    have hcode : value.extractLsb' 0 4 = 5#4 := by simpa [Instr.isReset] using hreset
    rw [if_pos hcode]
    split
    · exact .inl rfl
    · exact .inr (resetsTo_softReset s none)
  | _ => cases hreset

/-! ## Every command -/

/-- The canonical form of memory, the map's books and the marked count are each in order in `t` if in `s`. -/
structure State.StaysSound (s t : State) : Prop where
  mem   : Memory.wf s.mem = true → Memory.wf t.mem = true
  map   : s.map.Consistent → t.map.Consistent
  store : s.store.Consistent → t.store.Consistent

theorem exec_staysSound {c : Instr} {t : State} (e : exec c s = .next t) : s.StaysSound t := by
  cases hreset : c.isReset with
  | true =>
    rcases exec_reset_cases s hreset e with rfl | h
    · exact ⟨id, id, id⟩
    · exact ⟨h.mem, fun _ => h.map ▸ MapUnit.reset_consistent, h.store⟩
  | false =>
    by_cases hpub : c = .publishClaim
    · subst hpub
      obtain ⟨hmap, hstore, -, hmem⟩ := execPublishClaim_keeps s e
      exact ⟨fun h => hmem ▸ h, hmap, fun h => hstore ▸ h⟩
    · by_cases hrow : ∃ moment, c = .rowOutput moment
      · obtain ⟨moment, rfl⟩ := hrow
        obtain ⟨hmap, hstore, hmem, -⟩ := execRowOutput_cases s e
        exact ⟨fun h => hmem ▸ h, fun h => hmap ▸ h, fun h => hstore ▸ h⟩
      · have h := exec_keepsBooks s hreset hpub (fun moment he => hrow ⟨moment, he⟩) e
        exact ⟨h.mem, h.map, h.store⟩

/-- 01 R5: the live map changes by publication or reset alone. -/
theorem exec_live_cases {c : Instr} {t : State} (e : exec c s = .next t) :
    t.map.live = s.map.live ∨ c = .publishClaim ∨ (c.isReset = true ∧ t.map.live = List.replicate 240 0) := by
  cases hreset : c.isReset with
  | true =>
    rcases exec_reset_cases s hreset e with rfl | h
    · exact .inl rfl
    · exact .inr (.inr ⟨rfl, by rw [h.map]; rfl⟩)
  | false =>
    by_cases hpub : c = .publishClaim
    · exact .inr (.inl hpub)
    · by_cases hrow : ∃ moment, c = .rowOutput moment
      · obtain ⟨moment, rfl⟩ := hrow
        obtain ⟨hmap, -⟩ := execRowOutput_cases s e
        exact .inl (by rw [hmap])
      · exact .inl (exec_keepsBooks s hreset hpub (fun moment he => hrow ⟨moment, he⟩) e).live

/-- 04 R79: the frame count rises by one with the output of the last row, and changes otherwise at reset alone. -/
theorem exec_frameCount_cases {c : Instr} {t : State} (e : exec c s = .next t) :
    t.scan.frameCount = s.scan.frameCount ∨
      ((∃ moment, c = .rowOutput moment) ∧ (∃ row, s.scan.row = some row ∧ 239 ≤ row) ∧ s.scan.mode ≠ .still ∧
        t.scan.frameCount = s.scan.frameCount + 1) ∨
      (c.isReset = true ∧ t.scan.frameCount = 0) := by
  cases hreset : c.isReset with
  | true =>
    rcases exec_reset_cases s hreset e with rfl | h
    · exact .inl rfl
    · exact .inr (.inr ⟨rfl, by rw [h.scan]; rfl⟩)
  | false =>
    by_cases hpub : c = .publishClaim
    · subst hpub
      obtain ⟨-, -, hscan, -⟩ := execPublishClaim_keeps s e
      exact .inl (by rw [hscan])
    · by_cases hrow : ∃ moment, c = .rowOutput moment
      · obtain ⟨moment, rfl⟩ := hrow
        obtain ⟨-, -, -, hframe⟩ := execRowOutput_cases s e
        exact hframe.imp id fun h => .inl ⟨⟨moment, rfl⟩, h⟩
      · exact .inl (exec_keepsBooks s hreset hpub (fun moment he => hrow ⟨moment, he⟩) e).frameCount

end Sys2Proof.Machine
end

section
/-! PROOFS. The statements of the line store and the line map. -/

namespace Sys2Proof.Machine

/-- Settles O56: what every command keeps, for the front command on the queue's rest. -/
theorem stepKeepsTheStoresSound : Obligations.StepKeepsTheStoresSound := by
  intro s t e
  unfold step at e
  split at e
  · obtain rfl := Host.Outcome.next.inj e
    exact ⟨id, id, id⟩
  · obtain ⟨hmem, hmap, hstore⟩ := exec_staysSound _ e
    exact ⟨hmem, hmap, hstore⟩

/-- Settles O29. An unlit panel means a STILL Scan Unit, and a STILL one counts no frame. -/
theorem liveMapAndFrameCountChangeOnlyWhen : Obligations.LiveMapAndFrameCountChangeOnlyWhen := by
  refine ⟨fun c s t e => exec_live_cases s e, fun c s t e => exec_frameCount_cases s e, ?_⟩
  intro c s t hmode hlit e hreset
  rcases exec_frameCount_cases s e with h | ⟨-, -, hscan, -⟩ | ⟨hr, -⟩
  · exact h
  · exact absurd (hmode.unlit hlit).1 hscan
  · rw [hreset] at hr
    cases hr

end Sys2Proof.Machine
end

section
/-! PROOFS. The claims of the Map Unit. -/

namespace Sys2Proof.Machine

/-! ## What each claim answers when its occasion is there -/

theorem execWriteClaim_eq {s : State} {row : Nat} {sl : Slot} (hk : s.engine.link = .writeClaim row)
    (hs : s.engine.slot = some sl) :
    exec .writeClaim s = .next ({ s with map := s.map.afterWrite s.knownMarks sl.setId row }.setLink
      (.writeAnswered row (s.map.writeAnswer sl.setId row))) := by
  show execWriteClaim s = _
  rw [execWriteClaim, hk, hs]

theorem execAliasClaim_damaged {s : State} {flaws : List (Nat × Flaw)} {sl : Slot} {op : OpRecord} {newly : Bool}
    (hk : s.engine.link = .aliasClaim) (hs : s.engine.slot = some sl) (ho : sl.op = some op)
    (ha : s.readAnswer (s.map.view sl.setId op.sourceRow) flaws = .damaged newly) :
    exec (.aliasClaim flaws) s = .next ((s.serveRead (s.map.view sl.setId op.sourceRow) flaws).setLink
      (.aliasAnswered (.damaged (s.map.view sl.setId op.sourceRow) newly))) := by
  show execAliasClaim flaws s = _
  rw [execAliasClaim, hk, hs]
  dsimp only
  rw [ho]
  dsimp only
  rw [ha]

theorem execAliasClaim_clean {s : State} {flaws : List (Nat × Flaw)} {sl : Slot} {op : OpRecord} {vs : List Half}
    (hk : s.engine.link = .aliasClaim) (hs : s.engine.slot = some sl) (ho : sl.op = some op)
    (ha : s.readAnswer (s.map.view sl.setId op.sourceRow) flaws = .values vs) :
    exec (.aliasClaim flaws) s = .next
      ({ s.serveRead (s.map.view sl.setId op.sourceRow) flaws with
        map := s.map.afterAlias (s.serveRead (s.map.view sl.setId op.sourceRow) flaws).knownMarks sl.setId op.sourceRow
          op.windowRows }.setLink (.aliasAnswered .done)) := by
  show execAliasClaim flaws s = _
  rw [execAliasClaim, hk, hs]
  dsimp only
  rw [ho]
  dsimp only
  rw [ha, serveRead_map]

theorem execShiftClaim_eq {s : State} {sl : Slot} {op : OpRecord} (hk : s.engine.link = .shiftClaim)
    (hs : s.engine.slot = some sl) (ho : sl.op = some op) :
    exec .shiftClaim s = .next
      ({ s with map := s.map.afterShift s.knownMarks sl.setId op.top op.height op.distance }.setLink
        .shiftAnswered) := by
  show execShiftClaim s = _
  rw [execShiftClaim, hk, hs]
  dsimp only
  rw [ho]

theorem execUnwindClaim_eq {s : State} {sl : Slot} (hk : s.engine.link = .unwindClaim)
    (hs : s.engine.slot = some sl) :
    exec .unwindClaim s = .next
      ({ s with map := s.map.afterUnwind s.knownMarks sl.setId }.setLink
        (.unwindAnswered (s.map.ownedCount sl.setId)
          (returnedLines s.map (s.map.afterUnwind s.knownMarks sl.setId)))) := by
  show execUnwindClaim s = _
  rw [execUnwindClaim, hk, hs]

theorem execPublishClaim_eq {s : State} {set : SetId} {rest : List SetId} (ht : s.commit.take = set :: rest) :
    exec .publishClaim s = .next
      { s with
        map := s.map.afterPublish s.knownMarks set
        commit := { s.commit with
          take := rest
          ready := s.commit.ready.map (ReadyEntry.publish set s.commit.frame (s.map.ownedCount set))
          published := s.commit.published + 1
          returned := s.commit.returned + returnedLines s.map (s.map.afterPublish s.knownMarks set)
          changed := s.commit.changed || s.map.publishChanges set } } := by
  show execPublishClaim s = _
  rw [execPublishClaim, ht]

/-! ## The statements -/

/-- Settles O24. A copy returns no line, for the line that the row gives up is still named elsewhere. -/
theorem writeClaimCopiesOnWrite : Obligations.WriteClaimCopiesOnWrite := by
  intro row sl s hk hs
  refine ⟨fun p ho hl hst => ?_, fun hno => ⟨fun hpool => ?_, fun n rest hpool hr hc hown => ?_⟩⟩
  · have hp := MapUnit.privateLine_eq_some ho hl hst
    rw [execWriteClaim_eq hk hs, MapUnit.afterWrite_inPlace _ hp, MapUnit.writeAnswer, hp]
    rfl
  · have hp := MapUnit.privateLine_eq_none.2 hno
    rw [execWriteClaim_eq hk hs, MapUnit.afterWrite_noRoom _ hp hpool, MapUnit.writeAnswer, hp, hpool]
    rfl
  · have hp := MapUnit.privateLine_eq_none.2 hno
    have hafter := hc.afterWrite s.knownMarks sl.setId row
    have hclaim := execWriteClaim_eq hk hs
    rw [MapUnit.afterWrite_copy _ hp hpool hr] at hafter hclaim
    rw [MapUnit.writeAnswer, hp, hpool] at hclaim
    have hst := MapUnit.stageStep_staged s.knownMarks sl.setId n { s.map with pool := rest }
      (hc.stageLength ▸ hr : row < s.map.staging.length)
    obtain ⟨hpool', hdamaged⟩ := hc.copy_returnsNothing s.knownMarks hpool hown hp
    exact ⟨_, hclaim, hpool', (hst row).trans (if_pos rfl), fun r hne => (hst r).trans (if_neg hne),
      MapUnit.stageStep_live .., hdamaged, MapUnit.stageStep_fresh .., hafter⟩

/-- Settles O25, by the run of stage steps over the rows of the window. -/
theorem aliasClaimStagesOneLine : Obligations.AliasClaimStagesOneLine := by
  intro flaws sl op s hk hs ho line
  refine ⟨fun newly ha => execAliasClaim_damaged hk hs ho ha, fun vs ha htop hbottom hsource hc _ => ?_⟩
  have hclaim := execAliasClaim_clean hk hs ho ha
  have hback := hc.afterAlias_givesBack (s.serveRead line flaws).knownMarks sl.setId hsource htop hbottom
  rw [knownMarks_eq] at hback
  have hst := fun r (hr : r < 240) =>
    hc.afterAlias_staged (s.serveRead line flaws).knownMarks sl.setId hsource htop hbottom hr
  refine ⟨_, hclaim, fun r hlo hhi => (hst r (by omega)).trans (if_pos ⟨hlo, hhi⟩), fun r hout => ?_, hback,
    MapUnit.afterAlias_live .., MapUnit.afterAlias_fresh .., hc.afterAlias _ _ _ _⟩
  by_cases hr : r < 240
  · exact (hst r hr).trans (if_neg (by omega))
  · rw [(hc.afterAlias _ _ _ _).staged_outside (by omega), hc.staged_outside (by omega)]

/-- Settles O26. Every line a row gives up is staged on the row that receives it, so none is returned. -/
theorem shiftClaimRotatesTheRange : Obligations.ShiftClaimRotatesTheRange := by
  intro sl op s hk hs ho htop hbottom hc hown
  have hheight : op.top + op.height = op.bottom + 1 := by
    unfold OpRecord.height
    omega
  have hrows : op.top + op.height ≤ Config.rows := hheight ▸ hbottom
  have hst := MapUnit.afterShift_staged s.knownMarks hc.stageLength sl.setId op.distance hrows
  obtain ⟨hpool, hdamaged⟩ := hc.afterShift_returnsNothing s.knownMarks op.distance hrows
    (fun r e hlo hhi he => hown r e hlo (by omega) he)
  exact ⟨_, execShiftClaim_eq hk hs ho, fun r hlo hhi => (hst r).trans (if_pos ⟨hlo, by omega⟩),
    fun r hout => (hst r).trans (if_neg (by omega)), hpool, hdamaged, MapUnit.afterShift_live ..,
    MapUnit.afterShift_fresh .., hc.afterShift _ _ _ _ _⟩

/-- Settles O27, by the run of unwinding steps over all rows. -/
theorem unwindClaimRemovesTheSet : Obligations.UnwindClaimRemovesTheSet := by
  intro sl s hk hs hc
  have hclaim := execUnwindClaim_eq hk hs
  have hback := hc.afterUnwind_givesBack s.knownMarks sl.setId
  rw [knownMarks_eq, funext (MapUnit.ownLine_eq s.map sl.setId)] at hback
  rw [MapUnit.ownedCount_eq, hback.returnedLines] at hclaim
  have hstaged := fun r (hr : r < 240) => hc.afterUnwind_staged s.knownMarks sl.setId hr
  have hlive := MapUnit.afterUnwind_live s.knownMarks s.map sl.setId
  have hfresh := MapUnit.afterUnwind_fresh s.knownMarks s.map sl.setId
  have hafter := hc.afterUnwind s.knownMarks sl.setId
  generalize s.map.afterUnwind s.knownMarks sl.setId = m at hclaim hback hstaged hlive hfresh hafter
  exact ⟨m, hclaim, hback, hstaged, hlive, hfresh, hafter⟩

/-- Settles O28, by the run of publication steps over all rows. -/
theorem publishClaimMakesTheSetLive : Obligations.PublishClaimMakesTheSetLive := by
  intro set rest s ht hc
  have hclaim := execPublishClaim_eq ht
  have hback := hc.afterPublish_givesBack s.knownMarks set
  rw [knownMarks_eq] at hback
  rw [MapUnit.ownedCount_eq, hback.returnedLines, hc.publishChanges_eq s.knownMarks set] at hclaim
  have hlive := fun r (hr : r < 240) => hc.afterPublish_liveLine s.knownMarks set hr
  have hstaged := fun r (hr : r < 240) => hc.afterPublish_staged s.knownMarks set hr
  have hfresh := hc.afterPublish_fresh s.knownMarks set
  have hafter := hc.afterPublish s.knownMarks set
  generalize s.map.afterPublish s.knownMarks set = m at hclaim hback hlive hstaged hfresh hafter
  exact ⟨m, hclaim, hback, hlive, hstaged, hfresh, hafter⟩

end Sys2Proof.Machine
end

section
/-! PROOFS. Line reads and writes, the first steps of STARTING, and resets. -/

namespace Sys2Proof.Machine

/-! ## A line read by the damage it meets (01 R2, R4) -/

theorem flawsOf_addFlaws (n : Nat) (sl : StoreLine) (flaws : List (Nat × Flaw)) :
    (sl.addFlaws n flaws).flawsOf n = sl.flawsOf n ++ flaws := by
  unfold StoreLine.addFlaws
  cases flaws with
  | nil => simp
  | cons f fs => rfl

theorem damages_eq_true {st : LineStore} {n : Nat} (hn : n < 384) (flaws : List (Nat × Flaw)) :
    st.damages n flaws = true ↔ ∃ f ∈ (st.line n).flawsOf n ++ flaws, f.2 = .uncorrectable := by
  rw [LineStore.damages, flawsOf_addFlaws, Bool.and_eq_true, List.any_eq_true]
  simp [hn]

/-- The flaw of a value is one or the other. -/
theorem damages_eq_false {st : LineStore} {n : Nat} (hn : n < 384) (flaws : List (Nat × Flaw)) :
    st.damages n flaws = false ↔ ∀ f ∈ (st.line n).flawsOf n ++ flaws, f.2 = .single := by
  rw [← Bool.not_eq_true, damages_eq_true hn]
  push Not
  refine forall₂_congr fun f _ => ?_
  cases f.2 <;> simp

theorem readAnswer_marked {st : LineStore} {n : Nat} (h : st.marked n = true) (flaws : List (Nat × Flaw)) :
    st.readAnswer n flaws = .damaged false ∧ st.afterRead n flaws = st := by
  rw [LineStore.readAnswer, LineStore.afterRead, if_pos h, if_pos h]
  exact ⟨rfl, rfl⟩

theorem readAnswer_damages {st : LineStore} {n : Nat} {flaws : List (Nat × Flaw)} (h : st.marked n = false)
    (hd : st.damages n flaws = true) :
    st.readAnswer n flaws = .damaged true ∧ st.afterRead n flaws =
      { lines := st.lines.set n ((st.line n).addFlaws n flaws), marks := st.marks.set n true,
        markedCount := st.markedCount + 1 } := by
  rw [LineStore.readAnswer, LineStore.afterRead, h, hd]
  exact ⟨rfl, rfl⟩

theorem readAnswer_clean {st : LineStore} {n : Nat} {flaws : List (Nat × Flaw)} (h : st.marked n = false)
    (hd : st.damages n flaws = false) :
    st.readAnswer n flaws = .values ((st.line n).valuesOf n) ∧ st.afterRead n flaws =
      { st with lines := st.lines.set n ((st.line n).addFlaws n flaws) } := by
  rw [LineStore.readAnswer, LineStore.afterRead, h, hd]
  exact ⟨rfl, rfl⟩

/-- 01 R4, 08 R154: what is sent with a new mark. -/
theorem reportMark_eq (s : State) (line count : Nat) :
    s.reportMark line count =
      { s with mail := { s.mail with
          markNotices := s.mail.markNotices ++ [line]
          damageLimit := s.mail.damageLimit + if count = 16 then 1 else 0
          faultRequests := s.mail.faultRequests ++
            if count = 16 then [(.lineStore, damageLimitRequest line)] else [] } } := by
  unfold State.reportMark
  by_cases h : count = 16
  · simp only [if_pos h]
    rfl
  · simp only [if_neg h, List.append_nil]
    rfl

/-- Settles O30, by the three branches of a read. -/
theorem lineReadAnswersByDamage : Obligations.LineReadAnswersByDamage := by
  refine ⟨fun n flaws s hn => ⟨fun hm => ?_, fun hm hd => ?_, fun hm hd => ?_⟩, fun s => ⟨fun h => ?_, ?_, ?_⟩⟩
  · obtain ⟨ha, hs⟩ := readAnswer_marked hm (inColumns flaws)
    refine ⟨ha, ?_⟩
    rw [State.serveRead, ha]
    dsimp only
    rw [hs]
  · obtain ⟨ha, hs⟩ := readAnswer_damages hm ((damages_eq_true hn (inColumns flaws)).2 hd)
    refine ⟨ha, ?_⟩
    rw [State.serveRead, ha]
    dsimp only
    rw [hs, reportMark_eq]
    rfl
  · obtain ⟨ha, hs⟩ := readAnswer_clean hm ((damages_eq_false hn (inColumns flaws)).2 hd)
    refine ⟨ha, ?_⟩
    rw [State.serveRead, ha]
    dsimp only
    rw [hs]
    rfl
  · show execMarkNotice s = _
    rw [execMarkNotice, h]
  · intro line rest h
    show execMarkNotice s = _
    rw [execMarkNotice, h]
    simp only [MapUnit.afterMark, List.contains_iff_mem]
  · intro line
    rw [knownMarks_getD, State.markKnown]
    simp

/-- Settles O31: each access is that of the Line Store, at the place its reader or writer asked for. -/
theorem linesAreReadAndWritten : Obligations.LinesAreReadAndWritten := by
  intro flaws s
  refine ⟨fun row base target hk => ?_, fun row line hk => ?_, fun line hp => ?_, fun target vs hk => ?_,
    fun span rest hk => ?_⟩
  · show execLineRead .engine flaws s = _
    rw [execLineRead, hk]
  · show execLineRead .engine flaws s = _
    rw [execLineRead, hk]
  · show execLineRead .scanUnit flaws s = _
    rw [execLineRead, hp]
    dsimp only
    rw [serveRead_scan]
  · show execWholeLineWrite .engine s = _
    rw [execWholeLineWrite, hk]
    rfl
  · show execSpanWrite s = _
    rw [execSpanWrite, hk]
    rfl

/-- Settles O11, a step of STARTING at a time. -/
theorem startingGoesStepByStep : Obligations.StartingGoesStepByStep := by
  refine fun s => ⟨?_, ?_, ?_⟩
  · show execWholeLineWrite .modeController s = _
    rw [execWholeLineWrite]
    cases s.mode.startup <;> rfl
  · show execStartingLineFill s = _
    rw [execStartingLineFill]
    cases s.mode.startup <;> rfl
  · show execSetupComplete s = _
    rw [execSetupComplete]
    split <;> rfl

/-- A view names the row's own staged line, the owner told by lane and serial (01 R6, R11). -/
theorem view_eq_match (m : MapUnit) (sl : Slot) (row : Nat) :
    m.view sl.setId row =
      match m.staging.getD row none with
      | some e => if e.owner.lane = sl.lane ∧ e.owner.serial = sl.header.serial then e.line else m.live.getD row 0
      | none => m.live.getD row 0 := by
  unfold MapUnit.view MapUnit.ownLine MapUnit.staged MapUnit.liveLine
  cases m.staging.getD row none with
  | none => rfl
  | some e =>
    have howner : e.owner = sl.setId ↔ e.owner.lane = sl.lane ∧ e.owner.serial = sl.header.serial := by
      rcases e with ⟨_, lane, serial⟩
      simp [Slot.setId]
    by_cases h : e.owner = sl.setId
    · simp only [if_pos h, if_pos (howner.1 h)]
      rfl
    · simp only [if_neg h, if_neg (h ∘ howner.2)]
      rfl

/-- Settles O23: the occasion is there, or the read is nobody's and falls through. -/
theorem liveAndViewReadsNameTheLine : Obligations.LiveAndViewReadsNameTheLine := by
  refine fun s => ⟨fun row hp hr => ?_, fun h => ?_, fun row sl hk hs => ?_, fun h => ?_⟩
  · show execLiveRead s = _
    rw [execLiveRead, hp, hr]
    rfl
  · show execLiveRead s = _
    unfold execLiveRead
    split
    · rename_i hp hr
      rcases h with h | h
      · exact absurd hp h
      · rw [hr] at h
        cases h
    · rfl
  · show execViewRead s = _
    rw [execViewRead, hk, hs]
    dsimp only
    rw [view_eq_match]
    rfl
  · show execViewRead s = _
    unfold execViewRead
    split
    · rename_i hk hs
      rcases h with h | h
      · exact absurd hk (h _)
      · rw [hs] at h
        cases h
    · rfl

/-! ## Resets -/

/-- What a reset finds begun changes memory alone. -/
theorem completeBegun_eq (s : State) (begun : Begun) :
    s.completeBegun begun = { s with mem := (s.completeBegun begun).mem } := by
  unfold State.completeBegun
  split
  · rfl
  · split <;> rfl

/-- Settles O54: the transfer that had begun ends first, and then come the reset values. -/
theorem resetsRestoreTheResetValues : Obligations.ResetsRestoreTheResetValues := by
  intro begun s mem hmem
  have hbegun : (s.completeBegun begun).mem = mem := by
    rcases hmem with ⟨rfl, rfl⟩ | ⟨unit, bus, rfl, hw, rfl⟩ | ⟨unit, bus, a, bs, rfl, hw, he, rfl⟩ |
      ⟨unit, bus, a, bs, landed, rfl, hw, he, rfl⟩
    · rfl
    · rw [State.completeBegun, hw]
    · rw [State.completeBegun, hw]
      dsimp only
      rw [State.busWrite_mem, busWriteMemory, he]
    · rw [State.completeBegun, hw]
      dsimp only
      rw [State.busWrite_mem, busWriteMemory, he]
  have hdone := completeBegun_eq s begun
  rw [hbegun] at hdone
  refine ⟨fun hpin => ?_, ?_, ?_⟩
  · show execReset begun s = _
    rw [execReset, hpin, hdone]
    rfl
  · show execResetPinAsserted begun s = _
    rw [execResetPinAsserted, hdone]
    rfl
  · show execPowerOnReset begun s = _
    rw [execPowerOnReset, hdone]
    rfl

theorem reset_modeConsistent : State.reset.ModeConsistent :=
  ⟨by decide, by decide, by decide, by decide, by decide, nofun, by decide, by decide, by decide, by decide, by decide,
    by decide⟩

theorem reset_withinCapacity : State.reset.WithinCapacity :=
  ⟨by decide, by decide, by decide, by decide, by decide, by decide, by decide, by decide, by decide, by decide⟩

theorem reset_setsInFlight (l : Lane) : State.reset.setsInFlight l = 0 := rfl

theorem reset_flightConsistent : State.reset.FlightConsistent :=
  ⟨fun l => (reset_setsInFlight l).le.trans (Nat.zero_le 1), fun l => .inl (reset_setsInFlight l), nofun, nofun, nofun⟩

/-- Settles O55: the invariants by their lemmas at reset, the values by evaluation. -/
theorem resetStateIsSound : Obligations.ResetStateIsSound := by
  have hflags : ∀ f : Flag, State.reset.port.flags.get f = false ∧ State.reset.port.enables.get f = false :=
    fun f => by cases f <;> exact ⟨rfl, rfl⟩
  have hrows : ∀ row, row < 240 → State.reset.map.liveLine row = 0 :=
    fun row _ => MapUnit.getD_replicate_self 240 row 0
  refine ⟨rfl, rfl, MapUnit.reset_consistent, LineStore.reset_consistent 0, reset_modeConsistent, reset_withinCapacity,
    reset_flightConsistent, rfl, hflags, rfl, rfl, rfl, rfl, ?_⟩
  refine ⟨rfl, rfl, rfl, rfl, rfl, rfl, rfl, rfl, rfl, rfl, rfl, rfl, rfl, rfl, rfl, rfl, rfl, rfl, rfl, rfl, rfl, ?_⟩
  exact ⟨by decide, by decide, rfl, rfl, rfl, hrows, rfl, rfl, rfl, rfl, rfl, rfl, rfl, rfl, rfl⟩

end Sys2Proof.Machine
end

section
/-! PROOFS. The ops of a set: the checks of an op record, and the record read, checked and begun (Chapters 2 and 3). -/

namespace Sys2Proof.Machine

namespace OpRecord

/-! ## The checks, each by itself (02 R30, R33, R34, R37, R46) -/

/-- The number of a kind in an op record (02 R30). -/
def kindCode : OpKind → Nat
  | .fill => 1
  | .blit => 2
  | .shift => 3
  | .aliasRows => 4
  | .readback => 5

theorem opKind_eq_some {op : OpRecord} {k : OpKind} : op.opKind = some k ↔ op.kind.toNat = kindCode k := by
  simp only [opKind, ← BitVec.toNat_inj]
  cases k <;> grind [kindCode]

theorem exists_opKind {op : OpRecord} : (∃ k, op.opKind = some k) ↔ 1 ≤ op.kind.toNat ∧ op.kind.toNat ≤ 5 := by
  simp only [opKind_eq_some]
  constructor
  · rintro ⟨k, hk⟩
    cases k <;> simp [hk, kindCode]
  · intro h
    obtain h | h | h | h | h : op.kind.toNat = 1 ∨ op.kind.toNat = 2 ∨ op.kind.toNat = 3 ∨ op.kind.toNat = 4 ∨
      op.kind.toNat = 5 := by omega
    exacts [⟨.fill, h⟩, ⟨.blit, h⟩, ⟨.shift, h⟩, ⟨.aliasRows, h⟩, ⟨.readback, h⟩]

theorem rowsOk_iff {op : OpRecord} : op.rowsOk = true ↔ op.row0.toNat ≤ op.row1.toNat ∧ op.row1.toNat ≤ 239 := by
  simp only [rowsOk, Bool.and_eq_true, decide_eq_true_eq]
  exact and_congr_right' Nat.lt_succ_iff

theorem columnsOk_iff {op : OpRecord} :
    op.columnsOk = true ↔ op.col0.toNat ≤ op.col1.toNat ∧ op.col1.toNat ≤ 319 := by
  simp only [columnsOk, Bool.and_eq_true, decide_eq_true_eq]
  exact and_congr_right' Nat.lt_succ_iff

theorem strideOk_iff {op : OpRecord} {width : Nat} :
    op.strideOk width = true ↔ op.arg14.toNat % 2 = 0 ∧ 2 * width ≤ op.arg14.toNat := by
  simp only [strideOk, Bool.and_eq_true, beq_iff_eq, decide_eq_true_eq]
  rfl

/-- 02 R34: a row lies in a zone of the lane. -/
theorem owns_iff {p : Plan} {lane : Lane} {row : Nat} :
    p.owns lane row = true ↔ ∃ z, p.zoneOf row = some z ∧ z.owner = lane := by
  unfold Plan.owns
  cases p.zoneOf row <;> simp

theorem mem_windowRows {op : OpRecord} (h : op.row0.toNat ≤ op.row1.toNat) {r : Nat} :
    r ∈ op.windowRows ↔ op.row0.toNat ≤ r ∧ r ≤ op.row1.toNat := by
  simp only [windowRows, List.mem_range'_1, height, top, bottom]
  omega

/-- 02 R34: a READBACK has no zone check; the rows of any other op lie in zones of the lane. -/
theorem zonesOk_iff {op : OpRecord} (h : op.row0.toNat ≤ op.row1.toNat) {plan : Option Plan} {lane : Lane}
    {k : OpKind} :
    op.zonesOk plan lane k = true ↔ k = .readback ∨ ∃ p, plan = some p ∧
      ∀ r, op.row0.toNat ≤ r → r ≤ op.row1.toNat → ∃ z, p.zoneOf r = some z ∧ z.owner = lane := by
  have hrows : k ≠ .readback → (op.zonesOk plan lane k = true ↔ ∃ p, plan = some p ∧
      ∀ r, op.row0.toNat ≤ r → r ≤ op.row1.toNat → ∃ z, p.zoneOf r = some z ∧ z.owner = lane) := by
    intro hk
    have hall : op.zonesOk plan lane k = plan.any fun p => op.windowRows.all (p.owns lane) := by
      cases k with
      | readback => exact absurd rfl hk
      | fill | blit | shift | aliasRows => cases plan <;> rfl
    rw [hall]
    simp only [Option.any_eq_true, List.all_eq_true, mem_windowRows h, owns_iff, and_imp]
  by_cases hk : k = .readback
  · subst hk
    simp [zonesOk]
  · rw [hrows hk]
    simp [hk]

/-! ## The checks in their order (02 R32) -/

/-- The kind is known and passes the window check and the check particular to it. -/
def Passes (op : OpRecord) (k : OpKind) : Prop := op.opKind = some k ∧ op.windowOk k = true ∧ op.kindOk k = true

theorem check_of_passes {op : OpRecord} {k : OpKind} (h : op.Passes k) (plan : Option Plan) (lane : Lane) :
    op.check plan lane = if op.zonesOk plan lane k then .ok k else .error .zoneViolation := by
  obtain ⟨hkind, hwindow, hown⟩ := h
  simp only [check, hkind, hwindow, hown]
  cases op.zonesOk plan lane k <;> rfl

theorem check_of_not_passes {op : OpRecord} (h : ¬∃ k, op.Passes k) (plan : Option Plan) (lane : Lane) :
    op.check plan lane = .error .badOp := by
  unfold check
  cases hkind : op.opKind with
  | none => rfl
  | some k =>
    dsimp only
    cases hwindow : op.windowOk k with
    | false => rfl
    | true =>
      cases hown : op.kindOk k with
      | false => rfl
      | true => exact absurd ⟨k, hkind, hwindow, hown⟩ h

/-- The checks before the zone check, written out by kind. -/
theorem exists_passes {op : OpRecord} :
    (∃ k, op.Passes k) ↔
      1 ≤ op.kind.toNat ∧ op.kind.toNat ≤ 5 ∧ (op.row0.toNat ≤ op.row1.toNat ∧ op.row1.toNat ≤ 239) ∧
      (op.kind.toNat = 1 ∨ op.kind.toNat = 2 ∨ op.kind.toNat = 5 →
        op.col0.toNat ≤ op.col1.toNat ∧ op.col1.toNat ≤ 319) ∧
      (op.kind.toNat = 2 → op.arg.toNat ≤ 7 ∧ op.arg14.toNat % 2 = 0 ∧
        2 * (if op.arg.getLsbD 2 then op.row1.toNat - op.row0.toNat + 1 else op.col1.toNat - op.col0.toNat + 1) ≤
          op.arg14.toNat) ∧
      (op.kind.toNat = 3 →
        op.arg10.toInt ≠ 0 ∧ op.arg10.toInt.natAbs < op.row1.toNat - op.row0.toNat + 1) ∧
      (op.kind.toNat = 4 → op.arg10.toNat ≤ 239) ∧
      (op.kind.toNat = 5 → op.arg14.toNat % 2 = 0 ∧ 2 * (op.col1.toNat - op.col0.toNat + 1) ≤ op.arg14.toNat) := by
  by_cases hknown : ∃ k, op.opKind = some k
  · obtain ⟨k, hk⟩ := hknown
    have hpasses : (∃ k, op.Passes k) ↔ op.windowOk k = true ∧ op.kindOk k = true := by
      simp [Passes, hk]
    rw [hpasses, opKind_eq_some.1 hk]
    cases k <;>
      simp only [kindCode, windowOk, kindOk, Bool.and_eq_true, rowsOk_iff, columnsOk_iff, strideOk_iff,
        decide_eq_true_eq, bne_iff_ne, distance, sourceRow, sourceWidth, exchange, height, width, top, bottom, left,
        right] <;>
      grind
  · have hnot : ¬∃ k, op.Passes k := fun ⟨k, hk, _⟩ => hknown ⟨k, hk⟩
    rw [exists_opKind] at hknown
    simp only [hnot, false_iff]
    exact fun h => hknown ⟨h.1, h.2.1⟩

end OpRecord

/-- Settles O33: an op that passes its own checks is decided by the zone check, any other is BAD_OP. -/
theorem opChecksDecideTheOutcome : Obligations.OpChecksDecideTheOutcome := by
  intro op plan lane kind rows columns w h strideFits good zones
  have hgood : good ↔ ∃ k, op.Passes k := OpRecord.exists_passes.symm
  rw [hgood]
  by_cases hp : ∃ k, op.Passes k
  · obtain ⟨k, hk⟩ := id hp
    have hrows : op.row0.toNat ≤ op.row1.toNat := (hgood.2 ⟨k, hk⟩).2.2.1.1
    have hreadback : k = .readback ↔ kind = 5 := by
      rw [← Option.some_inj, ← hk.1]
      exact OpRecord.opKind_eq_some
    have hzones : op.zonesOk plan lane k = true ↔ zones := by rw [OpRecord.zonesOk_iff hrows, hreadback]
    rw [OpRecord.check_of_passes hk]
    by_cases hz : zones
    · simp [hzones.2 hz, hz, hk.1, hp]
    · have hz' : op.zonesOk plan lane k = false := by simpa using mt hzones.1 hz
      simp [hz', hz, hp]
  · rw [OpRecord.check_of_not_passes hp]
    simp [hp]

end Sys2Proof.Machine
end

section
/-! PROOFS. What the Apply Engine does with each answer and each transfer (Chapter 3): one lemma for each branch of a
command, then the statements. -/

namespace Sys2Proof.Machine

/-! ## Bus transfers by how they ended (09 R164) -/

theorem busData_error (s : State) {bus : BusEvent} (h : bus.error ≠ none) (a : Word) (n : Nat) :
    s.busData bus a n = none := by
  unfold State.busData
  cases he : bus.error with
  | none => exact absurd he h
  | some _ => rfl

theorem busData_clean (s : State) {bus : BusEvent} (h : bus.error = none) (a : Word) (n : Nat) :
    s.busData bus a n = some (Memory.readBytes (Memory.hostWrites s.mem bus.host) a n) := by
  rw [State.busData, h]

theorem busClean_error {bus : BusEvent} (h : bus.error ≠ none) : busClean bus = false := by
  simpa [busClean, Option.isNone_eq_false_iff, Option.isSome_iff_ne_none] using h

theorem busClean_clean {bus : BusEvent} (h : bus.error = none) : busClean bus = true := by
  rw [busClean, h]
  rfl

/-! ## The answers the engine takes, with the set in its slot -/

section

variable {s : State} {sl : Slot} {op : OpRecord} {c : AbortCause} (hs : s.engine.slot = some sl)
include hs

/-- 03 R66: with an abort cause noted, the answer to a write claim ends the set. -/
theorem execWriteClaimAnswer_noted {row : Nat} {answer : WriteAnswer} (hk : s.engine.link = .writeAnswered row answer)
    (hc : sl.abortCause = some c) : execWriteClaimAnswer s = .next (s.abortSet sl true c.outcome none) := by
  rw [execWriteClaimAnswer, hk, hs]
  dsimp only
  rw [hc]

theorem execWriteClaimAnswer_inPlace {row line : Nat} (hk : s.engine.link = .writeAnswered row (.inPlace line))
    (hop : sl.op = some op) (hc : sl.abortCause = none) :
    execWriteClaimAnswer s = .next (s.lineNamed sl op line) := by
  rw [execWriteClaimAnswer, hk, hs]
  dsimp only
  rw [hc, hop]

theorem execWriteClaimAnswer_copy {row line base : Nat} (hk : s.engine.link = .writeAnswered row (.copy line base))
    (hop : sl.op = some op) (hc : sl.abortCause = none) :
    execWriteClaimAnswer s = .next (s.setLink (.copyRead row base line)) := by
  rw [execWriteClaimAnswer, hk, hs]
  dsimp only
  rw [hc, hop]

theorem execWriteClaimAnswer_noRoom {row : Nat} (hk : s.engine.link = .writeAnswered row .noRoom)
    (hop : sl.op = some op) (hc : sl.abortCause = none) :
    execWriteClaimAnswer s = .next { s with engine := { s.engine with state := .starved, link := .quiet } } := by
  rw [execWriteClaimAnswer, hk, hs]
  dsimp only
  rw [hc, hop]

theorem execEngineLineWriteDone_copyNoted {line : Nat} (hk : s.engine.link = .copyWritten line)
    (hc : sl.abortCause = some c) : execEngineLineWriteDone s = .next (s.abortSet sl true c.outcome none) := by
  rw [execEngineLineWriteDone, hk, hs]
  dsimp only
  rw [hc]

theorem execEngineLineWriteDone_spanNoted {rest : List Span} (hk : s.engine.link = .spanWritten rest)
    (hc : sl.abortCause = some c) : execEngineLineWriteDone s = .next (s.abortSet sl true c.outcome none) := by
  rw [execEngineLineWriteDone, hk, hs]
  dsimp only
  rw [hc]

theorem execEngineLineWriteDone_copied {line : Nat} (hk : s.engine.link = .copyWritten line) (hop : sl.op = some op)
    (hc : sl.abortCause = none) : execEngineLineWriteDone s = .next (s.lineNamed sl op line) := by
  rw [execEngineLineWriteDone, hk, hs]
  dsimp only
  rw [hc, hop]

theorem execEngineLineWriteDone_nextSpan {span : Span} {rest : List Span}
    (hk : s.engine.link = .spanWritten (span :: rest)) (hop : sl.op = some op) (hc : sl.abortCause = none) :
    execEngineLineWriteDone s = .next (s.setLink (.spanWrite span rest)) := by
  rw [execEngineLineWriteDone, hk, hs]
  dsimp only
  rw [hc, hop]

theorem execEngineLineWriteDone_spansDone (hk : s.engine.link = .spanWritten []) (hop : sl.op = some op)
    (hc : sl.abortCause = none) : execEngineLineWriteDone s = .next (s.spansDone sl op) := by
  rw [execEngineLineWriteDone, hk, hs]
  dsimp only
  rw [hc, hop]

/-- 02 R35, 03 R66: the line to copy from has been read. -/
theorem execEngineLineReadAnswer_copy {row base target : Nat} {vs : List Half}
    (hk : s.engine.link = .copyReadAnswered row base target (.values vs)) :
    execEngineLineReadAnswer s = .next (sl.abortCause.elim (s.setLink (.copyWrite target vs))
      fun c => s.abortSet sl true c.outcome none) := by
  rw [execEngineLineReadAnswer, hk, hs]
  dsimp only
  cases sl.abortCause <;> rfl

/-- 02 R47, 03 R66: the line of a readback row has been read. -/
theorem execEngineLineReadAnswer_row {row line : Nat} {vs : List Half}
    (hk : s.engine.link = .rowReadAnswered row line (.values vs)) (hop : sl.op = some op) :
    execEngineLineReadAnswer s = .next (sl.abortCause.elim (s.setLink (.readbackWrite row (op.readbackBytes vs)))
      fun c => s.abortSet sl true c.outcome none) := by
  rw [execEngineLineReadAnswer, hk, hs]
  dsimp only
  rw [hop]
  cases sl.abortCause <;> rfl

theorem execEngineLineReadAnswer_copyDamaged {row base target : Nat} {newly : Bool}
    (hk : s.engine.link = .copyReadAnswered row base target (.damaged newly)) :
    execEngineLineReadAnswer s = .next (s.damageMet sl base row newly) := by
  rw [execEngineLineReadAnswer, hk, hs]

theorem execEngineLineReadAnswer_rowDamaged {row line : Nat} {newly : Bool}
    (hk : s.engine.link = .rowReadAnswered row line (.damaged newly)) :
    execEngineLineReadAnswer s = .next (s.damageMet sl line row newly) := by
  rw [execEngineLineReadAnswer, hk, hs]

theorem execAliasClaimAnswer_done (hk : s.engine.link = .aliasAnswered .done) :
    execAliasClaimAnswer s =
      .next (sl.abortCause.elim (s.opDone sl) fun c => s.abortSet sl true c.outcome none) := by
  rw [execAliasClaimAnswer, hk, hs]
  dsimp only
  cases sl.abortCause <;> rfl

theorem execAliasClaimAnswer_damaged {line : Nat} {newly : Bool}
    (hk : s.engine.link = .aliasAnswered (.damaged line newly)) (hop : sl.op = some op) :
    execAliasClaimAnswer s = .next (s.damageMet sl line op.sourceRow newly) := by
  rw [execAliasClaimAnswer, hk, hs]
  dsimp only
  rw [hop]

theorem execShiftClaimAnswer_eq (hk : s.engine.link = .shiftAnswered) :
    execShiftClaimAnswer s =
      .next (sl.abortCause.elim (s.opDone sl) fun c => s.abortSet sl true c.outcome none) := by
  rw [execShiftClaimAnswer, hk, hs]
  dsimp only
  cases sl.abortCause <;> rfl

theorem execViewReadAnswer_eq {row line : Nat} (hk : s.engine.link = .viewAnswered row line) :
    execViewReadAnswer s =
      .next (sl.abortCause.elim (s.setLink (.rowRead row line)) fun c => s.abortSet sl true c.outcome none) := by
  rw [execViewReadAnswer, hk, hs]
  dsimp only
  cases sl.abortCause <;> rfl

/-! ## The op record -/

section

variable (bus : BusEvent) (hk : s.engine.link = .opRead)
include hk

theorem execOpRecordRead_noted (hc : sl.abortCause = some c) :
    execOpRecordRead bus s = .next ((s.busRead bus).abortSet sl true c.outcome none) := by
  rw [execOpRecordRead, hk, hs]
  dsimp only
  rw [hc]

theorem execOpRecordRead_error (hc : sl.abortCause = none) (he : bus.error ≠ none) :
    execOpRecordRead bus s = .next ((s.busRead bus).abortSet sl true .transferFault (some sl.opIndex)) := by
  rw [execOpRecordRead, hk, hs]
  dsimp only
  rw [hc, busData_error s he]

theorem execOpRecordRead_failed {o : SetOutcome} (hc : sl.abortCause = none) (he : bus.error = none)
    (hop : op = opRecordOf
      (Memory.readBytes (Memory.hostWrites s.mem bus.host) (sl.header.opAddress sl.opIndex) 16))
    (ho : op.check s.mode.plan sl.lane = .error o) :
    execOpRecordRead bus s =
      .next ((s.busRead bus).abortSet { sl with op := some op } true o (some sl.opIndex)) := by
  subst hop
  rw [execOpRecordRead, hk, hs]
  dsimp only
  rw [hc, busData_clean s he]
  dsimp only
  rw [ho]

theorem execOpRecordRead_begun {k : OpKind} (hc : sl.abortCause = none) (he : bus.error = none)
    (hop : op = opRecordOf
      (Memory.readBytes (Memory.hostWrites s.mem bus.host) (sl.header.opAddress sl.opIndex) 16))
    (ho : op.check s.mode.plan sl.lane = .ok k) :
    execOpRecordRead bus s = .next ((s.busRead bus).beginOp sl op k) := by
  subst hop
  rw [execOpRecordRead, hk, hs]
  dsimp only
  rw [hc, busData_clean s he]
  dsimp only
  rw [ho]

end

/-! ## Source rows and readback rows -/

section

variable (bus : BusEvent) (hop : sl.op = some op)
include hop

theorem execSourceRowRead_noted {y : Nat} (hk : s.engine.link = .sourceRead y) (hc : sl.abortCause = some c) :
    execSourceRowRead bus s = .next ((s.busRead bus).abortSet sl true c.outcome none) := by
  rw [execSourceRowRead, hk, hs]
  dsimp only
  rw [hop, hc]

theorem execSourceRowRead_error {y : Nat} (hk : s.engine.link = .sourceRead y) (hc : sl.abortCause = none)
    (he : bus.error ≠ none) :
    execSourceRowRead bus s = .next ((s.busRead bus).abortSet sl true .transferFault (some sl.opIndex)) := by
  rw [execSourceRowRead, hk, hs]
  dsimp only
  rw [hop]
  dsimp only
  rw [hc, busData_error s he]

theorem execSourceRowRead_clean {y : Nat} (hk : s.engine.link = .sourceRead y) (hc : sl.abortCause = none)
    (he : bus.error = none) {span : Span} {rest : List Span}
    (hspans : blitSpans op sl.named y
      (coloursOf (Memory.readBytes (Memory.hostWrites s.mem bus.host) (op.sourceRowAddress y) (2 * op.sourceWidth))
        op.sourceWidth) = span :: rest) :
    execSourceRowRead bus s = .next ((s.busRead bus).setLink (.spanWrite span rest)) := by
  rw [execSourceRowRead, hk, hs]
  dsimp only
  rw [hop]
  dsimp only
  rw [hc, busData_clean s he]
  dsimp only
  rw [hspans]

theorem execReadbackRowWrite_noted {row : Nat} {bytes : List Byte} (hk : s.engine.link = .readbackWrite row bytes)
    (hc : sl.abortCause = some c) :
    execReadbackRowWrite bus s =
      .next ((s.busWrite bus (op.readbackAddress row) bytes).abortSet sl true c.outcome none) := by
  rw [execReadbackRowWrite, hk, hs]
  dsimp only
  rw [hop, hc]

theorem execReadbackRowWrite_error {row : Nat} {bytes : List Byte} (hk : s.engine.link = .readbackWrite row bytes)
    (hc : sl.abortCause = none) (he : bus.error ≠ none) :
    execReadbackRowWrite bus s =
      .next ((s.busWrite bus (op.readbackAddress row) bytes).abortSet sl true .transferFault (some sl.opIndex)) := by
  rw [execReadbackRowWrite, hk, hs]
  dsimp only
  rw [hop, hc, busClean_error he]
  rfl

theorem execReadbackRowWrite_clean {row : Nat} {bytes : List Byte} (hk : s.engine.link = .readbackWrite row bytes)
    (hc : sl.abortCause = none) (he : bus.error = none) :
    execReadbackRowWrite bus s = .next
      (if row < op.bottom then
        (s.busWrite bus (op.readbackAddress row) bytes).setSlot { sl with progress := .readback (row + 1) }
          (.viewRead (row + 1))
      else (s.busWrite bus (op.readbackAddress row) bytes).opDone sl) := by
  rw [execReadbackRowWrite, hk, hs]
  dsimp only
  rw [hop, hc, busClean_clean he]
  rfl

end

end

/-! ## The line of a row, and damage -/

/-- 02 R36, R39: the line named for a row, by what the op is doing. -/
theorem lineNamed_fill (s : State) {sl : Slot} {op : OpRecord} {row : Nat} (line : Nat)
    (h : sl.progress = .fill row) :
    s.lineNamed sl op line = s.setSlot sl (.spanWrite ⟨line, op.left, List.replicate op.width op.colour⟩ []) := by
  rw [State.lineNamed, h]

theorem lineNamed_blitClaim (s : State) {sl : Slot} {op : OpRecord} {row : Nat} (line : Nat)
    (h : sl.progress = .blitClaim row) :
    s.lineNamed sl op line =
      if row < op.bottom then
        s.setSlot { sl with progress := .blitClaim (row + 1), named := sl.named ++ [line] } (.writeClaim (row + 1))
      else s.setSlot { sl with progress := .blitTransfer 0, named := sl.named ++ [line] } (.sourceRead 0) := by
  rw [State.lineNamed, h]

/-- 03 R56, R66: the outcome and the failed op of a set that met damage; a noted cause comes first. -/
def Slot.damageOutcome (sl : Slot) : SetOutcome := sl.abortCause.elim .storeError AbortCause.outcome
def Slot.damageOp (sl : Slot) : Option Nat := sl.abortCause.elim (some sl.opIndex) fun _ => none

theorem damageMet_eq (s : State) (sl : Slot) (line row : Nat) (newly : Bool) :
    s.damageMet sl line row newly =
      (if newly then s.askFault .engine (lineDamagedRequest sl line row) else s).abortSet sl true sl.damageOutcome
        sl.damageOp := by
  unfold State.damageMet Slot.damageOutcome Slot.damageOp
  cases sl.abortCause <;> rfl

/-- A BLIT writes something for every source row. -/
theorem blitSpans_ne_nil (op : OpRecord) (named : List Nat) (y : Nat) (vs : List Half) :
    blitSpans op named y vs ≠ [] := by
  have hheight : op.height ≠ 0 := Nat.succ_ne_zero _
  unfold blitSpans
  split <;> simp [hheight]

/-! ## The statements -/

/-- Settles O34, by the abort cause, the bus and the checks of the op. -/
theorem opRecordIsReadAndBegun : Obligations.OpRecordIsReadAndBegun := by
  intro bus s
  refine ⟨fun hk => ?_, ?_⟩
  · show execOpRecordRead bus s = _
    unfold execOpRecordRead
    split
    · exact absurd ‹_› hk
    · rfl
  · intro sl hk hs mem op ended
    refine ⟨fun c hc => execOpRecordRead_noted hs bus hk hc, fun hc he => execOpRecordRead_error hs bus hk hc he,
      fun o hc he ho => execOpRecordRead_failed hs bus hk hc he rfl ho, fun k hc he ho => ?_⟩
    refine (execOpRecordRead_begun hs bus hk hc he rfl ho).trans ?_
    cases k <;> rfl

/-- Settles O35: a noted cause ends the set; otherwise the answer, the line named or the last span decides. -/
theorem rowsAreClaimedAndWritten : Obligations.RowsAreClaimedAndWritten := by
  intro sl op s hs hop put opDone
  have hput : ∀ sl' k, put sl' k = s.setSlot sl' k := fun _ _ => rfl
  refine ⟨fun c command hc h => ?_, fun hc => ⟨fun row hk => execWriteClaimAnswer_noRoom hs hk hop hc,
    fun row line base hk => execWriteClaimAnswer_copy hs hk hop hc, fun command line h => ?_,
    fun span rest hk => execEngineLineWriteDone_nextSpan hs hk hop hc, fun hk => ?_⟩⟩
  · rcases h with ⟨rfl, row, answer, hk⟩ | ⟨rfl, ⟨line, hk⟩ | ⟨rest, hk⟩⟩
    · exact execWriteClaimAnswer_noted hs hk hc
    · exact execEngineLineWriteDone_copyNoted hs hk hc
    · exact execEngineLineWriteDone_spanNoted hs hk hc
  · have hnamed : exec command s = .next (s.lineNamed sl op line) := by
      rcases h with ⟨rfl, row, hk⟩ | ⟨rfl, hk⟩
      · exact execWriteClaimAnswer_inPlace hs hk hop hc
      · exact execEngineLineWriteDone_copied hs hk hop hc
    rw [hnamed]
    refine ⟨fun row hp => ?_, fun row hp hlt => ?_, fun row hp hle => ?_⟩
    · rw [lineNamed_fill s line hp, hput]
    · rw [lineNamed_blitClaim s line hp, if_pos hlt, hput]
    · rw [lineNamed_blitClaim s line hp, if_neg (Nat.not_lt.2 hle), hput]
  · have hdone : exec .engineLineWriteDone s = .next (s.spansDone sl op) :=
      execEngineLineWriteDone_spansDone hs hk hop hc
    rw [hdone]
    refine ⟨fun row hp => ?_, fun y hp => ?_⟩
    · rw [State.spansDone, hp]
      rfl
    · rw [State.spansDone, hp]
      rfl

/-- Settles O36: each answer with and without a noted cause, and damage by `damageMet_eq`. -/
theorem engineActsOnAnswers : Obligations.EngineActsOnAnswers := by
  intro sl op s hs hop ended opDone
  have hended : ∀ o i, ended [] o i = s.abortSet sl true o i := fun o i => by
    show ({ s with mail := { s.mail with faultRequests := s.mail.faultRequests ++ [] }, engine := _ } : State) = _
    rw [List.append_nil]
    rfl
  refine ⟨fun row base target vs hk => ?_, fun row line vs hk => ?_, fun hk => ?_, fun hk => ?_, fun row line hk => ?_,
    fun command row line newly h => ?_⟩
  · refine (execEngineLineReadAnswer_copy hs hk).trans ?_
    simp only [hended]
    cases sl.abortCause <;> rfl
  · refine (execEngineLineReadAnswer_row hs hk hop).trans ?_
    simp only [hended]
    cases sl.abortCause <;> rfl
  · refine (execAliasClaimAnswer_done hs hk).trans ?_
    simp only [hended]
    cases sl.abortCause <;> rfl
  · refine (execShiftClaimAnswer_eq hs hk).trans ?_
    simp only [hended]
    cases sl.abortCause <;> rfl
  · refine (execViewReadAnswer_eq hs hk).trans ?_
    simp only [hended]
    cases sl.abortCause <;> rfl
  · have hdamage : exec command s = .next (s.damageMet sl line row newly) := by
      rcases h with ⟨rfl, target, hk⟩ | ⟨rfl, hk⟩ | ⟨rfl, hk, rfl⟩
      · exact execEngineLineReadAnswer_copyDamaged hs hk
      · exact execEngineLineReadAnswer_rowDamaged hs hk
      · exact execAliasClaimAnswer_damaged hs hk hop
    rw [hdamage, damageMet_eq]
    unfold Slot.damageOutcome Slot.damageOp
    cases newly with
    | true => cases sl.abortCause <;> rfl
    | false =>
      refine congrArg Host.Outcome.next ((hended _ _).symm.trans ?_)
      cases sl.abortCause <;> rfl

/-- Settles O38: each transfer by the abort cause and the bus. -/
theorem rowTransfersMoveTheData : Obligations.RowTransfersMoveTheData := by
  intro bus sl op s hs hop ended
  refine ⟨fun y hk => ?_, fun row bytes hk => ?_⟩
  · intro mem bytes
    refine ⟨fun c hc => execSourceRowRead_noted hs bus hop hk hc,
      fun hc he => execSourceRowRead_error hs bus hop hk hc he, fun hc he => ?_⟩
    obtain ⟨span, rest, hspans⟩ := List.exists_cons_of_ne_nil
      (blitSpans_ne_nil op sl.named y (coloursOf bytes op.sourceWidth))
    exact ⟨span, rest, hspans, execSourceRowRead_clean hs bus hop hk hc he hspans⟩
  · intro mem
    refine ⟨fun c hc => execReadbackRowWrite_noted hs bus hop hk hc,
      fun hc he => execReadbackRowWrite_error hs bus hop hk hc he, fun hc he hlt => ?_, fun hc he hle => ?_⟩
    · refine (execReadbackRowWrite_clean hs bus hop hk hc he).trans ?_
      rw [if_pos hlt]
      rfl
    · refine (execReadbackRowWrite_clean hs bus hop hk hc he).trans ?_
      rw [if_neg (Nat.not_lt.2 hle)]
      rfl

/-- Settles O39: the slot's final figures, then the end of the set. -/
theorem abortIsWrittenAndReported : Obligations.AbortIsWrittenAndReported := by
  refine fun sl f s hs hf => ⟨fun removed returned hk => ?_, fun bus hk => ?_⟩
  · show execUnwindAnswer s = _
    rw [execUnwindAnswer, hk, hs]
    dsimp only
    rw [hf]
    rfl
  · show execAbortOutcomeWrite bus s = _
    rw [execAbortOutcomeWrite, hk, hs]
    dsimp only
    rw [hf]
    dsimp only
    rw [State.busWrite_mail, List.append_cons s.mail.engineReports]
    rfl

/-- Settles O22. -/
theorem committedOutcomeIsWritten : Obligations.CommittedOutcomeIsWritten := by
  refine fun bus s => ⟨fun h => ?_, fun e rest hw hr => ?_⟩
  · show execCommittedOutcomeWrite bus s = _
    unfold execCommittedOutcomeWrite
    split
    · rename_i hw hr
      rcases h with h | h
      · exact absurd hw h
      · cases hr.symm.trans h
    · rfl
  · show execCommittedOutcomeWrite bus s = _
    unfold execCommittedOutcomeWrite
    split
    · rename_i hr'
      cases hr.symm.trans hr'
      rfl
    · rename_i hne
      exact absurd hr (hne e rest hw)

end Sys2Proof.Machine
end

section
/-! PROOFS. The orientation of a BLIT (02 R37, R38): a mirrored index is its own inverse, so pixels of the window and
source values stand one to one, and the span writes of a source row follow that correspondence. -/

namespace Sys2Proof.Machine

/-! ## Mirrored indices -/

/-- An index among `n`, counted from the other end if `mirrored`. -/
def mirror (mirrored : Bool) (n i : Nat) : Nat := if mirrored then n - 1 - i else i

theorem mirror_lt {m : Bool} {n i : Nat} (h : i < n) : mirror m n i < n := by
  unfold mirror
  split <;> omega

theorem mirror_mirror (m : Bool) {n i : Nat} (h : i < n) : mirror m n (mirror m n i) = i := by
  unfold mirror
  split <;> omega

theorem mirror_inj {m : Bool} {n i i' : Nat} (h : i < n) (h' : i' < n) (e : mirror m n i = mirror m n i') : i = i' := by
  rw [← mirror_mirror m h, e, mirror_mirror m h']

/-- A list read from the other end. -/
theorem getElem?_mirrored {α : Type} (m : Bool) (vs : List α) {k : Nat} (h : k < vs.length) :
    (if m then vs.reverse else vs)[k]? = vs[mirror m vs.length k]? := by
  cases m with
  | false => rfl
  | true => exact List.getElem?_reverse h

/-! ## The orientation of an op -/

namespace OpRecord

variable (op : OpRecord)

/-- The source column and the source row whose value goes to column `i` and row `j` of the window (02 R38). -/
def sourceX (i j : Nat) : Nat :=
  if op.exchange then mirror op.mirrorRows op.height j else mirror op.mirrorColumns op.width i
def sourceY (i j : Nat) : Nat :=
  if op.exchange then mirror op.mirrorColumns op.width i else mirror op.mirrorRows op.height j

variable {op} {i j i' j' : Nat}

/-- 02 R38: the part of a window index that the source row gives, and the part the source column gives. -/
theorem sourceX_lt (hi : i < op.width) (hj : j < op.height) : op.sourceX i j < op.sourceWidth := by
  unfold sourceX sourceWidth
  split
  · exact mirror_lt hj
  · exact mirror_lt hi

theorem sourceY_lt (hi : i < op.width) (hj : j < op.height) : op.sourceY i j < op.sourceHeight := by
  unfold sourceY sourceHeight
  split
  · exact mirror_lt hi
  · exact mirror_lt hj

theorem source_inj (hi : i < op.width) (hj : j < op.height) (hi' : i' < op.width) (hj' : j' < op.height)
    (hx : op.sourceX i j = op.sourceX i' j') (hy : op.sourceY i j = op.sourceY i' j') : i = i' ∧ j = j' := by
  unfold sourceX at hx
  unfold sourceY at hy
  cases he : op.exchange with
  | true =>
    rw [he] at hx hy
    exact ⟨mirror_inj hi hi' hy, mirror_inj hj hj' hx⟩
  | false =>
    rw [he] at hx hy
    exact ⟨mirror_inj hi hi' hx, mirror_inj hj hj' hy⟩

/-- Every source value has its pixel. -/
theorem exists_pixel {u v : Nat} (hu : u < op.sourceWidth) (hv : v < op.sourceHeight) :
    ∃ i j, i < op.width ∧ j < op.height ∧ op.sourceX i j = u ∧ op.sourceY i j = v := by
  unfold sourceX sourceY
  unfold sourceWidth at hu
  unfold sourceHeight at hv
  cases he : op.exchange with
  | true =>
    rw [he] at hu hv
    exact ⟨_, _, mirror_lt hv, mirror_lt hu, mirror_mirror _ hu, mirror_mirror _ hv⟩
  | false =>
    rw [he] at hu hv
    exact ⟨_, _, mirror_lt hu, mirror_lt hv, mirror_mirror _ hu, mirror_mirror _ hv⟩

/-- 10 R176: the three choices stand in bits 0 to 2 of the orientation. -/
theorem orientation_bits (h : op.arg.toNat ≤ 7) :
    (op.mirrorColumns = true ↔ op.arg.toNat % 2 = 1) ∧ (op.mirrorRows = true ↔ op.arg.toNat / 2 % 2 = 1) ∧
      (op.exchange = true ↔ 4 ≤ op.arg.toNat) := by
  simp only [mirrorColumns, mirrorRows, exchange, BitVec.getLsbD, Nat.testBit_eq_decide_div_mod_eq, decide_eq_true_eq,
    Nat.pow_zero, Nat.div_one, Nat.reducePow, true_and]
  omega

end OpRecord

/-! ## The span writes of a source row -/

variable {op : OpRecord} (named : List Nat) (v : Nat) (vs : List Half)

/-- 02 R40: without exchange, one span over a window row. -/
theorem blitSpans_row (h : op.exchange = false) :
    blitSpans op named v vs =
      [⟨named.getD (mirror op.mirrorRows op.height v) 0, op.left, if op.mirrorColumns then vs.reverse else vs⟩] := by
  rw [blitSpans, h]
  rfl

/-- 02 R40: with exchange, one value into each line of a window column. -/
theorem blitSpans_column (h : op.exchange = true) :
    blitSpans op named v vs = (List.range op.height).map fun x =>
      ⟨named.getD (mirror op.mirrorRows op.height x) 0, op.left + mirror op.mirrorColumns op.width v,
        [vs.getD x 0]⟩ := by
  rw [blitSpans, h]
  rfl

variable {vs}

/-- Some span of the source row writes the value of a pixel there. -/
theorem exists_span_of_pixel {i j : Nat} (hi : i < op.width) (hj : j < op.height) (hvs : vs.length = op.sourceWidth) :
    ∃ span ∈ blitSpans op named (op.sourceY i j) vs,
      span.line = named.getD j 0 ∧ span.c0 ≤ op.left + i ∧
        span.values[op.left + i - span.c0]? = vs[op.sourceX i j]? := by
  unfold OpRecord.sourceWidth at hvs
  unfold OpRecord.sourceX OpRecord.sourceY
  cases he : op.exchange with
  | true =>
    rw [he] at hvs
    have hx : mirror op.mirrorRows op.height j < op.height := mirror_lt hj
    rw [blitSpans_column _ _ _ he]
    refine ⟨_, List.mem_map_of_mem (List.mem_range.2 hx), ?_, ?_, ?_⟩
    · simp only [mirror_mirror _ hj]
    · simp only [if_true, mirror_mirror _ hi, le_refl]
    · have hlt : mirror op.mirrorRows op.height j < vs.length := hvs ▸ hx
      simp [mirror_mirror _ hi, List.getElem?_eq_getElem hlt]
  | false =>
    rw [he] at hvs
    have hlt : i < vs.length := hvs ▸ hi
    rw [blitSpans_row _ _ _ he]
    refine ⟨_, List.mem_singleton_self _, ?_, Nat.le_add_right _ _, ?_⟩
    · simp only [Bool.false_eq_true, if_false, mirror_mirror _ hj]
    · have hw : vs.length = op.width := hvs
      simp only [Nat.add_sub_cancel_left, getElem?_mirrored _ _ hlt, hw, Bool.false_eq_true, if_false]

/-- Every value a span of the source row writes is that of a pixel of the window, at its place. -/
theorem exists_pixel_of_span (hv : v < op.sourceHeight) (hvs : vs.length = op.sourceWidth) {span : Span}
    (hspan : span ∈ blitSpans op named v vs) {k : Nat} {c : Half} (hk : span.values[k]? = some c) :
    ∃ i j, i < op.width ∧ j < op.height ∧ op.sourceY i j = v ∧ vs[op.sourceX i j]? = some c ∧
      span.line = named.getD j 0 ∧ span.c0 + k = op.left + i := by
  unfold OpRecord.sourceWidth at hvs
  unfold OpRecord.sourceHeight at hv
  unfold OpRecord.sourceX OpRecord.sourceY
  cases he : op.exchange with
  | true =>
    rw [he] at hvs hv
    rw [blitSpans_column _ _ _ he] at hspan
    obtain ⟨x, hx, rfl⟩ := List.mem_map.1 hspan
    have hlt : x < vs.length := hvs ▸ List.mem_range.1 hx
    obtain ⟨rfl, rfl⟩ : k = 0 ∧ vs.getD x 0 = c := by simpa [List.getElem?_singleton] using hk
    refine ⟨_, _, mirror_lt hv, mirror_lt (List.mem_range.1 hx), mirror_mirror _ hv, ?_, rfl, rfl⟩
    simp only [if_true, mirror_mirror _ (List.mem_range.1 hx), List.getD_eq_getElem _ _ hlt,
      List.getElem?_eq_getElem hlt]
  | false =>
    rw [he] at hvs hv
    have hw : vs.length = op.width := hvs
    rw [blitSpans_row _ _ _ he] at hspan
    obtain rfl := List.mem_singleton.1 hspan
    have hlt : k < vs.length := by
      obtain ⟨h, -⟩ := List.getElem?_eq_some_iff.1 hk
      dsimp only at h
      split at h <;> simpa using h
    refine ⟨k, _, hw ▸ hlt, mirror_lt hv, mirror_mirror _ hv, ?_, rfl, rfl⟩
    simpa only [getElem?_mirrored _ _ hlt, hw, Bool.false_eq_true, if_false] using hk

/-- The spans of a source row hold as many values as the row. -/
theorem blitSpans_lengths (hvs : vs.length = op.sourceWidth) :
    ((blitSpans op named v vs).map fun span => span.values.length).sum = op.sourceWidth := by
  unfold OpRecord.sourceWidth at hvs ⊢
  cases he : op.exchange with
  | true =>
    rw [blitSpans_column _ _ _ he]
    simp [Function.comp_def]
  | false =>
    rw [he] at hvs
    rw [blitSpans_row _ _ _ he]
    cases op.mirrorColumns <;> simpa using hvs

/-- Settles O37: the correspondence is `OpRecord.sourceX` and `OpRecord.sourceY`. -/
theorem blitOrientationPlacesEachValue : Obligations.BlitOrientationPlacesEachValue := by
  intro op named _ a b x y
  refine ⟨rfl, rfl, OpRecord.orientation_bits, fun i j hi hj => ⟨OpRecord.sourceX_lt hi hj, OpRecord.sourceY_lt hi hj,
    fun vs hvs => exists_span_of_pixel named hi hj hvs, fun i' j' hi' hj' => OpRecord.source_inj hi hj hi' hj'⟩,
    fun u v hu hv => OpRecord.exists_pixel hu hv, fun v vs hv hvs => ⟨blitSpans_lengths named v hvs,
      fun span hspan k c hk => exists_pixel_of_span named v hv hvs hspan hk⟩⟩

end Sys2Proof.Machine
end

section
/-! PROOFS. The agenda of the Lane Service (05 R91 to R112): what each bus write puts into memory, what each step that
is no write does, and how the poll begins and goes on. -/

namespace Sys2Proof.Machine

/-! ## Lanes and intake heads -/

section

variable {u : LaneUnit}

theorem LaneUnit.headNotifies_cons {e : IntakeEntry} {es : List IntakeEntry} (h : u.intake = e :: es) :
    u.headNotifies = e.header.notify := by
  rw [LaneUnit.headNotifies, h]

theorem LaneUnit.flightNotifies_some {f : FlightNote} (h : u.flight = some f) : u.flightNotifies = f.notify := by
  rw [LaneUnit.flightNotifies, h]

/-- 05 R104: a lane ends the entry at the head of its queue when it is marked and no set is in flight. -/
theorem LaneUnit.ready_iff :
    u.ready = true ↔ u.flight = none ∧ ∃ e es, u.intake = e :: es ∧ e.mark ≠ .ordinary := by
  unfold LaneUnit.ready
  cases u.intake <;> simp

/-- 05 R103. -/
theorem LaneUnit.eligible_iff :
    u.eligible = true ↔
      u.state = .running ∧ u.flight = none ∧ u.intake.head?.any (fun e => e.mark == .ordinary) = true := by
  unfold LaneUnit.eligible
  cases u.intake <;> simp [and_assoc]

end

variable {s : State} {l : Lane} {rest : List LaneTask}

/-! ## The write groups (10 R165, R169, R173) -/

theorem busWrite_writeEntryOutcome {e : IntakeEntry} {es : List IntakeEntry} (h : (s.lane l).intake = e :: es) :
    (LaneTask.writeEntryOutcome l).busWrite s =
      some (e.header.address + 16#32, wordBytes e.commitFrame ++
        [if e.mark = .malformed then 2 else if e.mark = .stopped then 10 else 9, 255, 0, 0]) := by
  rw [LaneTask.busWrite, h]
  dsimp only
  cases e.mark <;> rfl

theorem busWrite_writeEntryReleased {e : IntakeEntry} {es : List IntakeEntry} (h : (s.lane l).intake = e :: es) :
    (LaneTask.writeEntryReleased l).busWrite s = some (s.laneRecord l + 20#32, halfBytes e.header.serial) := by
  rw [LaneTask.busWrite, h]

/-- A write that meets no bus error is followed by the rest of the agenda. -/
theorem execLaneRecordWrite_clean {bus : BusEvent} {w : LaneTask} {a : Word} {bs : List Byte}
    (hagenda : s.lanes.agenda = w :: rest) (hw : w.busWrite s = some (a, bs)) (he : bus.error = none) :
    execLaneRecordWrite bus s = .next
      (State.work rest { s with mem := Memory.writeBytes (Memory.hostWrites s.mem bus.host) a bs }) := by
  have hmem : s.busWrite bus a bs = { s with mem := Memory.writeBytes (Memory.hostWrites s.mem bus.host) a bs } := by
    rw [State.busWrite, busWriteMemory, he]
  unfold execLaneRecordWrite
  rw [hagenda]
  dsimp only
  rw [hw]
  dsimp only
  rw [busClean_clean he, if_pos rfl, hmem]

/-! ## Steps that are no writes -/

/-- 04 R89: the Commit Unit hears that its report was taken. -/
theorem entryLeaves_eq (s : State) :
    s.entryLeaves =
      { s with commit := { s.commit with
          ready := s.commit.ready.tail
          outcomeWork :=
            if s.commit.ready.tail.head?.any (fun e =>
                e.condition == .published && (!s.commit.inProgress || e.commitFrame != s.commit.frame)) then .writing
            else .idle } } := by
  unfold State.entryLeaves CommitUnit.beginOutcome
  rw [List.drop_one]
  cases s.commit.ready.tail with
  | nil => rfl
  | cons e es =>
    have hbegins : (e.condition = .published ∧ (s.commit.inProgress = false ∨ e.commitFrame ≠ s.commit.frame)) ↔
        (e :: es).head?.any (fun e =>
          e.condition == .published && (!s.commit.inProgress || e.commitFrame != s.commit.frame)) = true := by
      simp
    simp only [hbegins]
    split <;> rfl

/-- 05 R110: a step that halts a RUNNING lane puts the halt's writes before the steps that remain. -/
theorem work_halt {t : LaneTask} {c : FaultCode} {a : Word} {n : Half} (hrun : (s.lane l).state = .running)
    (hw : t.isWrite = false) (hf : s.follows t = s.haltTasks false l c a n) (hp : s.perform t = s.haltLane l c a n) :
    State.work (t :: rest) s = (s.haltLane l c a n).setAgenda (s.haltTasks false l c a n ++ rest) := by
  have hne : s.follows t ≠ [] := by
    rw [hf, haltTasks_running s l c a n hrun]
    simp
  rw [work_follows s rest hw hne, hf, hp]

/-- 05 R111, R106: the cause met by a lane that is not RUNNING leaves nothing to write. -/
theorem haltTasks_not_running {c : FaultCode} {a : Word} {n : Half} (h : (s.lane l).state ≠ .running) :
    s.haltTasks false l c a n = [] := if_neg h

theorem haltLane_draining {c : FaultCode} {a : Word} {n : Half} (h : (s.lane l).state = .draining) :
    s.haltLane l c a n =
      ((s.askFault .laneService (haltRequest l c a n)).askFlag .lane).setLane l
        { s.lane l with
          drainTarget := .halted
          haltReason := if (s.lane l).haltReason = .none then c.haltReason else (s.lane l).haltReason } := by
  rw [State.haltLane, h]
  rfl

theorem haltLane_idle {c : FaultCode} {a : Word} {n : Half} (h : (s.lane l).state = .halted ∨ (s.lane l).state = .off) :
    s.haltLane l c a n = s := by
  unfold State.haltLane
  rcases h with h | h <;> rw [h]

/-- 05 R104: the endings of a lane whose head is marked, with no set in flight; any other lane has none. -/
theorem endTasks_ready {e : IntakeEntry} {es : List IntakeEntry} (hi : (s.lane l).intake = e :: es)
    (hf : (s.lane l).flight = none) (hm : e.mark ≠ .ordinary) :
    s.endTasks l =
      [.writeEntryOutcome l, .writeEntryReleased l, .notifyEntry l, .removeEntry l, .endEntries l] :=
  if_pos (LaneUnit.ready_iff.2 ⟨hf, e, es, hi, hm⟩)

theorem endTasks_not_ready
    (h : (s.lane l).intake = [] ∨ (s.lane l).flight ≠ none ∨
      ∃ e es, (s.lane l).intake = e :: es ∧ e.mark = .ordinary) : s.endTasks l = [] := by
  refine if_neg fun hready => ?_
  obtain ⟨hf, e, es, hi, hm⟩ := LaneUnit.ready_iff.1 hready
  rcases h with h | h | ⟨e', es', hi', hm'⟩
  · cases hi.symm.trans h
  · exact h hf
  · cases hi.symm.trans hi'
    exact hm hm'

/-! ## The poll (05 R98) -/

theorem pollActing_iff :
    s.pollActing l = true ↔ ∃ j, s.lanes.job = some j ∧ j.lane = l ∧ j.phase = .acting := by
  unfold State.pollActing
  cases s.lanes.job <;> simp

/-- With the lane's work not between its reads, the poll does nothing. -/
theorem poll_idle (link : Word) (h : ∀ j, s.lanes.job = some j → j.lane ≠ l ∨ j.phase ≠ .acting) :
    s.poll l link = s ∧ s.pollTasks l link = [] := by
  have hacting : s.pollActing l = false := by
    rw [Bool.eq_false_iff, ne_eq, pollActing_iff]
    rintro ⟨j, hj, hl, hp⟩
    exact (h j hj).elim (· hl) (· hp)
  simp [State.poll, State.pollTasks, hacting]

theorem setPhase_of_job {j : BoundaryJob} (hj : s.lanes.job = some j) (p : PollPhase) :
    s.setPhase p = { s with lanes := { s.lanes with job := some { j with phase := p } } } := by
  rw [State.setPhase, hj]
  rfl

section

variable {j : BoundaryJob} (hj : s.lanes.job = some j) (hl : j.lane = l) (hp : j.phase = .acting) (link : Word)
include hj hl hp

theorem poll_ended (h : j.stopNoted = true ∨ (s.lane l).state ≠ .running ∨ 2 ≤ (s.lane l).intake.length) :
    s.poll l link = s.setPhase .ended ∧ s.pollTasks l link = [] := by
  have hacting : s.pollActing l = true := pollActing_iff.2 ⟨j, hj, hl, hp⟩
  have hstop : s.stopNoted = j.stopNoted := by rw [State.stopNoted, hj]
  cases hn : j.stopNoted with
  | true => simp [State.poll, State.pollTasks, hacting, hstop, hn]
  | false =>
    have hroom : ¬((s.lane l).state = .running ∧ (s.lane l).intake.length < 2) := fun ⟨hrun, hlt⟩ => by
      rcases h with h | h | h
      · rw [hn] at h
        cases h
      · exact h hrun
      · omega
    have hrecord : s.pollsRecord l = false := by
      simp only [State.pollsRecord, Bool.and_eq_false_iff, beq_eq_false_iff_ne, decide_eq_false_iff_not]
      exact .inl (not_and_or.1 hroom)
    simp only [State.poll, State.pollTasks, hacting, hstop, hn, hrecord, hroom, if_true, if_false, Bool.false_eq_true,
      Bool.and_false, and_self]

variable (hn : j.stopNoted = false) (hrun : (s.lane l).state = .running) (hroom : (s.lane l).intake.length < 2)
include hn hrun hroom

theorem poll_anchored (h : (s.lane l).anchor ≠ none) :
    s.poll l link = s.setPhase .linkRead ∧ s.pollTasks l link = [] := by
  have hacting : s.pollActing l = true := pollActing_iff.2 ⟨j, hj, hl, hp⟩
  have hstop : s.stopNoted = false := by rw [State.stopNoted, hj]; exact hn
  have hrecord : s.pollsRecord l = false := by simp [State.pollsRecord, Option.isSome_iff_ne_none, h]
  simp only [State.poll, State.pollTasks, hacting, hstop, hrecord, hrun, hroom, if_true, if_false, Bool.false_eq_true,
    Bool.and_false, and_self]

theorem poll_record (h : (s.lane l).anchor = none) :
    s.poll l link = s.followLink l link ∧ s.pollTasks l link = s.followTasks l link := by
  have hacting : s.pollActing l = true := pollActing_iff.2 ⟨j, hj, hl, hp⟩
  have hstop : s.stopNoted = false := by rw [State.stopNoted, hj]; exact hn
  have hrecord : s.pollsRecord l = true := by simp [State.pollsRecord, hrun, hroom, h]
  simp [State.poll, State.pollTasks, hacting, hstop, hrecord]

end

theorem aligned_iff (link : Word) : link % 16 = 0 ↔ link.toNat % 16 = 0 := by
  rw [← BitVec.toNat_inj, BitVec.toNat_umod]
  rfl

theorem follow_zero : s.followLink l 0 = s.setPhase .ended ∧ s.followTasks l 0 = [] := ⟨rfl, rfl⟩

theorem follow_aligned {link : Word} (h0 : link ≠ 0) (h : link % 16 = 0) :
    s.followLink l link = s.setPhase (.headerRead link) ∧ s.followTasks l link = [] :=
  ⟨(if_neg h0).trans (if_pos h), if_pos h⟩

theorem follow_misaligned {link : Word} (h : ¬link % 16 = 0) :
    s.followLink l link = s.haltLane l .chainMisaligned link (s.lane l).expectedOrZero ∧
      s.followTasks l link = s.haltTasks false l .chainMisaligned link (s.lane l).expectedOrZero := by
  have h0 : link ≠ 0 := by
    rintro rfl
    exact h rfl
  exact ⟨(if_neg h0).trans (if_neg h), if_neg h⟩

/-! ## The end of the agenda -/

theorem nextLane_of_ne_last {l : Lane} (h : l ≠ 3) : nextLane l = some (l + 1) := by
  revert l
  decide

/-! ## The statement -/

/-- Settles O52: the write groups, the steps that are no writes, halts and the poll, and the end of the agenda. -/
theorem laneWritesAndStepsFollow : Obligations.LaneWritesAndStepsFollow := by
  refine ⟨?_, fun bus s h => ?_, ?_, ?_, ?_⟩
  · intro bus s l u record w rest a bs hagenda he h
    refine execLaneRecordWrite_clean hagenda ?_ he
    rcases h with ⟨rfl, rfl, rfl⟩ | ⟨rfl, rfl, rfl⟩ | ⟨rfl, rfl, rfl⟩ | ⟨link, rfl, rfl, rfl⟩ |
      ⟨ticket, done, rfl, rfl, rfl⟩ | ⟨serial, address, rfl, rfl, rfl⟩ | ⟨e, es, hi, h⟩
    · rfl
    · rfl
    · rfl
    · rfl
    · rfl
    · rfl
    · rcases h with ⟨rfl, rfl, rfl⟩ | ⟨rfl, rfl, rfl⟩
      · exact busWrite_writeEntryOutcome hi
      · exact busWrite_writeEntryReleased hi
  · show execLaneRecordWrite bus s = _
    rw [execLaneRecordWrite, h]
  · intro s l rest u withLane notified
    refine ⟨fun w hw => work_write s rest hw, fun e es hi => ⟨?_, ?_⟩, fun f hf => ?_, ?_, fun e es hi hf hm => ?_,
      fun h => ?_, ?_, ?_⟩
    · rw [work_perform s rest rfl rfl, State.perform, LaneUnit.headNotifies_cons hi]
      rfl
    · rw [work_perform s rest rfl rfl, State.perform, hi]
      rfl
    · rw [work_perform s rest rfl rfl, State.perform, LaneUnit.flightNotifies_some hf]
      rfl
    · exact work_perform s rest rfl rfl
    · have hfollows : s.follows (.endEntries l) = _ := endTasks_ready hi hf hm
      rw [work_follows s rest rfl (hfollows ▸ List.cons_ne_nil _ _), hfollows]
      rfl
    · exact work_perform s rest rfl (endTasks_not_ready h)
    · rw [work_perform s rest rfl rfl, State.perform]
      exact congrArg (State.work rest) (if_congr LaneUnit.eligible_iff rfl rfl)
    · rw [work_perform s rest rfl rfl, State.perform, entryLeaves_eq]
  · intro s l rest u halted
    have hhalt : ∀ (t : LaneTask) (c : FaultCode) (a : Word) (n : Half), u.state = .running → t.isWrite = false →
        s.follows t = s.haltTasks false l c a n → s.perform t = s.haltLane l c a n →
        State.work (t :: rest) s = halted c c.haltReason a n := by
      intro t c a n hrun hw hf hp
      rw [work_halt hrun hw hf hp, haltLane_running s l c a n hrun, haltTasks_running s l c a n hrun]
      rfl
    refine ⟨fun address serial => ⟨fun hrun => hhalt (.outcomeHalt l address serial) .outcomeWrite _ _ hrun rfl rfl rfl,
      fun hdrain => ?_, fun hidle => ?_⟩, fun task link h => ?_⟩
    · have hnot : u.state ≠ .running := by rw [hdrain]; decide
      rw [work_perform s (t := .outcomeHalt l address serial) rest rfl (haltTasks_not_running hnot),
        State.perform, haltLane_draining hdrain]
      rfl
    · have hnot : u.state ≠ .running := by rcases hidle with h | h <;> rw [h] <;> decide
      rw [work_perform s (t := .outcomeHalt l address serial) rest rfl (haltTasks_not_running hnot),
        State.perform, haltLane_idle hidle]
    · obtain ⟨hw, hf, hp⟩ :
          task.isWrite = false ∧ s.follows task = s.pollTasks l link ∧ s.perform task = s.poll l link := by
        rcases h with rfl | ⟨rfl, rfl⟩ <;> exact ⟨rfl, rfl, rfl⟩
      have hgoes : ∀ t, s.poll l link = t ∧ s.pollTasks l link = [] → State.work (task :: rest) s = State.work rest t :=
        fun t ⟨hpoll, htasks⟩ => by rw [work_perform s rest hw (hf.trans htasks), hp, hpoll]
      refine ⟨fun hidle => hgoes s (poll_idle link hidle), fun j hj hl hacting => ?_⟩
      intro inPhase
      have hphase : ∀ p, inPhase p = s.setPhase p := fun p => (setPhase_of_job hj p).symm
      simp only [hphase]
      refine ⟨fun h => hgoes _ (poll_ended hj hl hacting link h),
        fun hn hrun hroom => ⟨fun hanchor => ?_, fun hrecord h0 => ?_, fun hrecord h0 h16 => ?_, fun hrecord h16 => ?_⟩⟩
      · exact hgoes _ (poll_anchored hj hl hacting link hn hrun hroom hanchor)
      · subst h0
        obtain ⟨hpoll, htasks⟩ := poll_record hj hl hacting 0 hn hrun hroom hrecord
        obtain ⟨hlink, hnone⟩ := follow_zero (s := s) (l := l)
        exact hgoes _ ⟨hpoll.trans hlink, htasks.trans hnone⟩
      · obtain ⟨hpoll, htasks⟩ := poll_record hj hl hacting link hn hrun hroom hrecord
        obtain ⟨hlink, hnone⟩ := follow_aligned (s := s) (l := l) h0 ((aligned_iff link).2 h16)
        exact hgoes _ ⟨hpoll.trans hlink, htasks.trans hnone⟩
      · obtain ⟨hpoll, htasks⟩ := poll_record hj hl hacting link hn hrun hroom hrecord
        obtain ⟨hlink, hhalts⟩ := follow_misaligned (s := s) (l := l) (mt (aligned_iff link).1 h16)
        exact hhalt task _ _ _ hrun hw (hf.trans (htasks.trans hhalts)) (hp.trans (hpoll.trans hlink))
  · intro s idle
    refine ⟨fun h => work_nil_working s h, fun j hj hp => ⟨fun hn => work_nil_stopped s hj hp hn, fun hn hl => ?_,
      fun hn hl => ?_⟩⟩
    · exact work_nil_next s hj hp hn (nextLane_of_ne_last hl)
    · exact work_nil_last s hj hp hn (by rw [hl]; rfl)

end Sys2Proof.Machine
end

section
/-! PROOFS. System memory (02 R41, R48, 09 R164, 10 R165): where the bytes of a bus write land, which commands leave
memory alone, and what the others make of it. -/

namespace Sys2Proof.Machine

/-! ## Where the bytes of a transfer land -/

namespace Memory

/-- Offsets below 2^32 from one address lie at different addresses. -/
theorem address_inj {a : Word} {i j : Nat} (hi : i < 2 ^ 32) (hj : j < 2 ^ 32)
    (h : (a + BitVec.ofNat 32 i).toNat = (a + BitVec.ofNat 32 j).toNat) : i = j := by
  have hsum := BitVec.toNat_inj.1 h
  rw [BitVec.add_right_inj, ← BitVec.toNat_inj, BitVec.toNat_ofNat, BitVec.toNat_ofNat, Nat.mod_eq_of_lt hi,
    Nat.mod_eq_of_lt hj] at hsum
  exact hsum

/-- A byte of a transfer that completed reads back at its place. -/
theorem read_writeSome_inside (a : Word) (bs : List Byte) {i k : Nat} {b : Byte} {m : Memory} (h : wf m = true)
    (hlen : i + bs.length ≤ 2 ^ 32) (hk : bs[k]? = some b) :
    read (writeSome (fun _ => true) i m a bs) (a + BitVec.ofNat 32 (i + k)).toNat = b := by
  induction bs generalizing i k m with
  | nil => cases hk
  | cons b' bs ih =>
    rw [List.length_cons] at hlen
    have hwf : wf (write m (a + BitVec.ofNat 32 i).toNat b') = true := wf_write _ _ h
    show read (writeSome _ (i + 1) (write m (a + BitVec.ofNat 32 i).toNat b') a bs) _ = b
    cases k with
    | zero =>
      cases hk
      simp only [Nat.add_zero]
      rw [read_writeSome_outside _ _ _ _ hwf, read_write _ _ _ h, if_pos rfl]
      intro j hj he
      have := address_inj (by omega) (by omega) he
      omega
    | succ k =>
      rw [show i + (k + 1) = i + 1 + k by omega]
      exact ih hwf (by omega) hk

end Memory

/-- A bus write leaves every byte outside it, however it ended (09 R164). -/
theorem read_busWriteMemory_outside {bus : BusEvent} {m : Memory} {a x : Word} {bs : List Byte}
    (hhost : bus.host = []) (h : Memory.wf m = true) (hx : ∀ i, i < bs.length → x ≠ a + BitVec.ofNat 32 i) :
    Memory.read (busWriteMemory bus m a bs) x.toNat = Memory.read m x.toNat := by
  have houtside : ∀ j, j < bs.length → (a + BitVec.ofNat 32 (0 + j)).toNat ≠ x.toNat := fun j hj he => by
    rw [Nat.zero_add] at he
    exact hx j hj (BitVec.toNat_inj.1 he).symm
  unfold busWriteMemory
  rw [hhost]
  split
  · exact Memory.read_writeSome_outside _ 0 a bs h _ houtside
  · exact Memory.read_writeSome_outside _ 0 a bs h _ houtside

/-- A bus write that met no error puts each byte in its place (10 R165). -/
theorem read_busWriteMemory_inside {bus : BusEvent} {m : Memory} {a : Word} {bs : List Byte} (hhost : bus.host = [])
    (he : bus.error = none) (h : Memory.wf m = true) (hlen : bs.length ≤ 640) {i : Nat} {b : Byte}
    (hi : bs[i]? = some b) : Memory.read (busWriteMemory bus m a bs) (a + BitVec.ofNat 32 i).toNat = b := by
  unfold busWriteMemory
  rw [he, hhost]
  have := Memory.read_writeSome_inside a bs (i := 0) h (by omega) hi
  rwa [Nat.zero_add] at this

/-! ## Commands that leave memory alone -/

/-- The command answers with a state that has the memory of `s`. -/
def State.LeavesMem (s : State) (r : Result) : Prop := ∃ t, r = .next t ∧ t.mem = s.mem

theorem leavesMem {s t : State} (h : t.mem = s.mem) : s.LeavesMem (.next t) := ⟨t, rfl, h⟩

theorem State.LeavesMem.mem {s t : State} {r : Result} (h : s.LeavesMem r) (e : r = .next t) : t.mem = s.mem := by
  obtain ⟨_, rfl, h⟩ := h
  cases e
  exact h

theorem mem_ite {m : Memory} {a b : State} {p : Prop} [Decidable p] (ha : a.mem = m) (hb : b.mem = m) :
    (if p then a else b).mem = m := by split <;> assumption

variable (s : State)

/-- With no host bytes before it, a bus read leaves memory as it is (02 R41). -/
theorem busRead_mem_quiet {bus : BusEvent} (h : bus.host = []) : (s.busRead bus).mem = s.mem := by
  rw [State.busRead_mem, h]
  rfl

/-! ### The Register Port and the Mode Controller -/

theorem leavesMem_execEnableWrite (value : Word) : s.LeavesMem (execEnableWrite value s) := by
  refine leavesMem (mem_ite rfl (mem_ite rfl ?_))
  split
  · exact (keeps_commandArrives _ _).mem
  · rfl

theorem leavesMem_execPlanRead {bus : BusEvent} (hq : bus.host = []) : s.LeavesMem (execPlanRead bus s) := by
  have h := busRead_mem_quiet s hq
  refine leavesMem ?_
  split
  · dsimp only
    split
    · exact h
    · split <;> exact h
  · rfl

theorem leavesMem_execBoundaryEvaluation : s.LeavesMem (execBoundaryEvaluation s) := by
  refine leavesMem ?_
  split
  · dsimp only
    split
    · exact (keeps_tryHold _).mem
    · exact mem_ite rfl rfl
    all_goals rfl
  · rfl

theorem leavesMem_execDamageLimitReport : s.LeavesMem (execDamageLimitReport s) := by
  refine leavesMem ?_
  split
  · rfl
  · exact (keeps_faultReport _).mem

theorem leavesMem_execRecorderFailureReport : s.LeavesMem (execRecorderFailureReport s) := by
  refine leavesMem ?_
  split
  · rfl
  · exact (keeps_faultReport _).mem

/-! ### The Scan Unit and the Commit Unit -/

theorem leavesMem_execRowOutput (moment : Nat) : s.LeavesMem (execRowOutput moment s) := by
  obtain ⟨-, -, hmem, -⟩ := execRowOutput_cases s (moment := moment) rfl
  exact leavesMem hmem

theorem leavesMem_execHaltScanning : s.LeavesMem (execHaltScanning s) := by
  refine leavesMem ?_
  split
  · exact (keeps_haltTaken _).mem.trans (keeps_haltScan _).mem
  · rfl

theorem leavesMem_execPublicationReport : s.LeavesMem (execPublicationReport s) := by
  refine leavesMem ?_
  split
  · rfl
  · exact mem_ite rfl rfl

/-! ### The Lane Service -/

theorem leavesMem_execLaneSetup {bus : BusEvent} (hq : bus.host = []) : s.LeavesMem (execLaneSetup bus s) := by
  have h := busRead_mem_quiet s hq
  refine leavesMem ?_
  split
  · dsimp only
    split <;> exact (keeps_work _ _).mem.trans h
  · rfl

theorem leavesMem_execLaneRequestRead {bus : BusEvent} (hq : bus.host = []) :
    s.LeavesMem (execLaneRequestRead bus s) := by
  have h : ∀ p, ((s.busRead bus).setPhase p).mem = s.mem := fun _ => busRead_mem_quiet s hq
  refine leavesMem ?_
  split
  · refine mem_ite (mem_ite ((keeps_work _ _).mem.trans (h _)) ?_) rfl
    split
    · exact (keeps_requestStep _ _ _).mem.trans (h _)
    · exact (keeps_work _ _).mem.trans (mem_ite ((keeps_haltLane _ _ _ _ _).mem.trans (h _)) (h _))
  · rfl

theorem leavesMem_execNextLinkRead {bus : BusEvent} (hq : bus.host = []) : s.LeavesMem (execNextLinkRead bus s) := by
  have h := busRead_mem_quiet s hq
  refine leavesMem ?_
  split
  · refine mem_ite ?_ rfl
    dsimp only
    split
    · exact mem_ite ((keeps_work _ _).mem.trans h)
        ((keeps_work _ _).mem.trans ((keeps_followLink _ _ _).mem.trans h))
    · exact (keeps_work _ _).mem.trans ((keeps_haltLane _ _ _ _ _).mem.trans h)
  · rfl

theorem leavesMem_execHeaderRead {bus : BusEvent} (hq : bus.host = []) : s.LeavesMem (execHeaderRead bus s) := by
  have h := busRead_mem_quiet s hq
  refine leavesMem ?_
  split
  · split
    · dsimp only
      split
      · exact (keeps_work _ _).mem.trans ((keeps_haltLane _ _ _ _ _).mem.trans h)
      · exact mem_ite ((keeps_work _ _).mem.trans h)
          ((keeps_work _ _).mem.trans ((keeps_haltLane _ _ _ _ _).mem.trans h))
    all_goals rfl
  · rfl

theorem leavesMem_execEndReport (reporter : EndReporter) : s.LeavesMem (execEndReport reporter s) := by
  refine leavesMem ?_
  split
  · split
    · exact (keeps_work _ _).mem
    · rfl
  · split
    · exact (keeps_work _ _).mem
    · rfl
  · rfl

theorem leavesMem_execCompletionReport : s.LeavesMem (execCompletionReport s) := by
  refine leavesMem ?_
  split
  · exact mem_ite (keeps_work _ _).mem rfl
  · rfl

theorem leavesMem_execStopNotice : s.LeavesMem (execStopNotice s) := by
  refine leavesMem (mem_ite ?_ rfl)
  split <;> rfl

/-! ### The Grant Arbiter and the Fault Recorder -/

theorem leavesMem_execEligibilityReport : s.LeavesMem (execEligibilityReport s) := by
  refine leavesMem ?_
  split
  · rfl
  · exact (keeps_trySelect _).mem

theorem leavesMem_execGrantAnswer : s.LeavesMem (execGrantAnswer s) := by
  refine leavesMem ?_
  split
  · rfl
  · exact (keeps_trySelect _).mem
  · rfl

theorem leavesMem_execFaultRequest (sender : FaultSender) : s.LeavesMem (execFaultRequest sender s) := by
  refine leavesMem ?_
  split
  · rfl
  · exact mem_ite (keeps_takeFault _).mem rfl

theorem leavesMem_execFaultSearchRead {bus : BusEvent} (hq : bus.host = []) :
    s.LeavesMem (execFaultSearchRead bus s) := by
  have h := busRead_mem_quiet s hq
  refine leavesMem ?_
  split
  · dsimp only
    split
    · exact (keeps_recorderFails _).mem.trans h
    · exact mem_ite h (mem_ite h ((keeps_dropFault _).mem.trans h))
  · rfl

/-! ### The Apply Engine -/

theorem leavesMem_execTrailerReadStart {bus : BusEvent} (hq : bus.host = []) :
    s.LeavesMem (execTrailerReadStart bus s) := by
  have h := busRead_mem_quiet s hq
  refine leavesMem ?_
  split
  · dsimp only
    split
    · exact h
    · exact h
    · exact mem_ite h h
  · rfl

theorem leavesMem_execOpRecordRead {bus : BusEvent} (hq : bus.host = []) : s.LeavesMem (execOpRecordRead bus s) := by
  have h := busRead_mem_quiet s hq
  refine leavesMem ?_
  split
  · dsimp only
    split
    · exact h
    · exact h
    · split
      · exact h
      · exact (keeps_beginOp _ _ _ _).mem.trans h
  · rfl

theorem leavesMem_execWriteClaimAnswer : s.LeavesMem (execWriteClaimAnswer s) := by
  refine leavesMem ?_
  split
  · split
    case h_3 => exact (keeps_lineNamed s _ _ _).mem
    all_goals rfl
  · rfl

theorem leavesMem_execEngineLineReadAnswer : s.LeavesMem (execEngineLineReadAnswer s) := by
  refine leavesMem ?_
  split
  · split
    · exact (keeps_damageMet s _ _ _ _).mem
    all_goals rfl
  · split
    · exact (keeps_damageMet s _ _ _ _).mem
    all_goals rfl
  · rfl

theorem leavesMem_execEngineLineWriteDone : s.LeavesMem (execEngineLineWriteDone s) := by
  refine leavesMem ?_
  split
  · split
    · rfl
    · exact (keeps_lineNamed s _ _ _).mem
    · rfl
  · split
    · rfl
    · rfl
    · exact (keeps_spansDone s _ _).mem
    · rfl
  · rfl

theorem leavesMem_execAliasClaimAnswer : s.LeavesMem (execAliasClaimAnswer s) := by
  refine leavesMem ?_
  split
  · split
    · exact (keeps_damageMet s _ _ _ _).mem
    all_goals rfl
  · rfl

theorem leavesMem_execSourceRowRead {bus : BusEvent} (hq : bus.host = []) :
    s.LeavesMem (execSourceRowRead bus s) := by
  have h := busRead_mem_quiet s hq
  refine leavesMem ?_
  split
  · split
    · rfl
    · dsimp only
      split
      · exact h
      · exact h
      · split <;> exact h
  · rfl

theorem leavesMem_execTrailerReadEnd {bus : BusEvent} (hq : bus.host = []) :
    s.LeavesMem (execTrailerReadEnd bus s) := by
  have h := busRead_mem_quiet s hq
  refine leavesMem ?_
  split
  · dsimp only
    split
    · exact h
    · exact h
    · exact mem_ite h h
  · rfl

theorem leavesMem_execReleaseNotice : s.LeavesMem (execReleaseNotice s) := by
  refine leavesMem ?_
  split
  · rfl
  · dsimp only
    split
    · exact mem_ite rfl rfl
    · rfl

theorem leavesMem_execAbortRequestStop : s.LeavesMem (execAbortRequestStop s) := by
  refine leavesMem (mem_ite ?_ rfl)
  dsimp only
  split
  · rfl
  · exact (keeps_requestAbort _ _ _).mem

theorem leavesMem_execAbortRequestLane : s.LeavesMem (execAbortRequestLane s) := by
  refine leavesMem ?_
  split
  · rfl
  · dsimp only
    split
    · rfl
    · exact mem_ite (keeps_requestAbort _ _ _).mem rfl

/-! ### The Map Unit and the Line Store -/

theorem leavesMem_execAliasClaim (flaws : List (Nat × Flaw)) : s.LeavesMem (execAliasClaim flaws s) := by
  refine leavesMem ?_
  split
  · split
    · rfl
    · dsimp only
      split <;> exact (keeps_serveRead s _ flaws).mem
  · rfl

theorem leavesMem_execLineRead (reader : LineReader) (flaws : List (Nat × Flaw)) :
    s.LeavesMem (execLineRead reader flaws s) := by
  refine leavesMem ?_
  split
  · split
    · exact (keeps_serveRead s _ flaws).mem
    · exact (keeps_serveRead s _ flaws).mem
    · rfl
  · split
    · exact (keeps_serveRead s _ flaws).mem
    · rfl

theorem leavesMem_execWholeLineWrite (writer : LineWriter) : s.LeavesMem (execWholeLineWrite writer s) := by
  refine leavesMem ?_
  split
  · split <;> rfl
  · split <;> rfl

/-! ### Every command but a bus write and a reset -/

/-- The commands that end a bus write, and the resets that may find one begun. -/
def reachesMem : Instr → Bool
  | .laneRecordWrite _ | .committedOutcomeWrite _ | .faultEntryWrite _ | .abortOutcomeWrite _ | .readbackRowWrite _
  | .powerOnReset _ | .reset _ | .resetPinAsserted _ => true
  | _ => false

theorem exec_leavesMem (c : Instr) (h : reachesMem c = false)
    (hq : ∀ bus, c.transfer = some bus → bus.host = []) : s.LeavesMem (exec c s) := by
  cases c with
  | start _ | stop _ | sleep _ | wake _ => exact leavesMem (keeps_command s _ _).mem
  | exbWrite _ | stsWrite _ | setupComplete | sleepingQuiesced | stoppingEngineIdle | stoppingComplete
  | frameStart _ | commitMarkEnd _ | flagSetRequest _ =>
    exact leavesMem (mem_ite rfl rfl)
  | startingLineFill | publicationComplete | readyAppend | pollReport | arbiterBoundary | overflowClear
  | viewRead | liveRead | writeClaim | unwindClaim | publishClaim | markNotice | spanWrite =>
    refine leavesMem ?_
    split <;> rfl
  | beginOrder | beginWithBlankFrame | frameCadence | heldCadence | commitBoundary | laneBoundary =>
    refine leavesMem ?_
    split
    · exact mem_ite rfl rfl
    · rfl
  | commandResult | finishOrder | grant | shiftClaimAnswer | viewReadAnswer | unwindAnswer | shiftClaim =>
    refine leavesMem ?_
    split
    · split <;> rfl
    · rfl
  | planRead bus => exact leavesMem_execPlanRead s (hq bus rfl)
  | enableWrite value => exact leavesMem_execEnableWrite s value
  | registerWriteIgnored _ _ _ => exact leavesMem rfl
  | laneSetup bus => exact leavesMem_execLaneSetup s (hq bus rfl)
  | rampUpEnd _ => exact leavesMem (mem_ite (mem_ite rfl (mem_ite rfl rfl)) rfl)
  | rampDownEnd _ => exact leavesMem (mem_ite (mem_ite (mem_ite rfl rfl) rfl) rfl)
  | boundaryEvaluation => exact leavesMem_execBoundaryEvaluation s
  | damageLimitReport => exact leavesMem_execDamageLimitReport s
  | recorderFailureReport => exact leavesMem_execRecorderFailureReport s
  | rowOutput moment => exact leavesMem_execRowOutput s moment
  | haltScanning => exact leavesMem_execHaltScanning s
  | publicationReport => exact leavesMem_execPublicationReport s
  | laneRequestRead bus => exact leavesMem_execLaneRequestRead s (hq bus rfl)
  | nextLinkRead bus => exact leavesMem_execNextLinkRead s (hq bus rfl)
  | headerRead bus => exact leavesMem_execHeaderRead s (hq bus rfl)
  | endReport reporter => exact leavesMem_execEndReport s reporter
  | completionReport => exact leavesMem_execCompletionReport s
  | stopNotice => exact leavesMem_execStopNotice s
  | eligibilityReport => exact leavesMem_execEligibilityReport s
  | grantRequest => exact leavesMem (mem_ite (keeps_trySelect _).mem rfl)
  | grantAnswer => exact leavesMem_execGrantAnswer s
  | trailerReadStart bus => exact leavesMem_execTrailerReadStart s (hq bus rfl)
  | opRecordRead bus => exact leavesMem_execOpRecordRead s (hq bus rfl)
  | writeClaimAnswer => exact leavesMem_execWriteClaimAnswer s
  | engineLineReadAnswer => exact leavesMem_execEngineLineReadAnswer s
  | engineLineWriteDone => exact leavesMem_execEngineLineWriteDone s
  | aliasClaimAnswer => exact leavesMem_execAliasClaimAnswer s
  | sourceRowRead bus => exact leavesMem_execSourceRowRead s (hq bus rfl)
  | trailerReadEnd bus => exact leavesMem_execTrailerReadEnd s (hq bus rfl)
  | releaseNotice => exact leavesMem_execReleaseNotice s
  | abortRequestStop => exact leavesMem_execAbortRequestStop s
  | abortRequestLane => exact leavesMem_execAbortRequestLane s
  | aliasClaim flaws => exact leavesMem_execAliasClaim s flaws
  | lineRead reader flaws => exact leavesMem_execLineRead s reader flaws
  | wholeLineWrite writer => exact leavesMem_execWholeLineWrite s writer
  | faultRequest sender => exact leavesMem_execFaultRequest s sender
  | faultSearchRead bus => exact leavesMem_execFaultSearchRead s (hq bus rfl)
  | sleepStopEndingsDone => exact leavesMem (mem_ite (mem_ite rfl rfl) rfl)
  | _ => cases h

/-- None of them ends a bus write. -/
theorem storeOf_of_not_reachesMem (c : Instr) (h : reachesMem c = false) : s.storeOf c = none := by
  cases c with
  | laneRecordWrite _ | committedOutcomeWrite _ | faultEntryWrite _ | abortOutcomeWrite _ | readbackRowWrite _
  | powerOnReset _ | reset _ | resetPinAsserted _ => cases h
  | _ => rfl

/-! ## Bus writes and resets -/

/-- What the end of a transfer makes of memory, given the write outstanding, if there is one. -/
def State.stored (s : State) (bus : BusEvent) : Option (Word × List Byte) → Memory
  | some (a, bs) => busWriteMemory bus s.mem a bs
  | none => s.mem

theorem execLaneRecordWrite_mem (bus : BusEvent) {t : State} (e : execLaneRecordWrite bus s = .next t) :
    t.mem = s.stored bus (s.storeOf (.laneRecordWrite bus)) := by
  show _ = s.stored bus (s.outstandingWrite .laneService)
  obtain rfl := Host.Outcome.next.inj e
  unfold State.outstandingWrite
  cases s.lanes.agenda with
  | nil => rfl
  | cons w rest =>
    dsimp only
    cases w.busWrite s with
    | none => rfl
    | some write => exact mem_ite (keeps_work _ _).mem ((keeps_work _ _).mem.trans (keeps_haltLane _ _ _ _ _).mem)

theorem execCommittedOutcomeWrite_mem (bus : BusEvent) {t : State} (e : execCommittedOutcomeWrite bus s = .next t) :
    t.mem = s.stored bus (s.storeOf (.committedOutcomeWrite bus)) := by
  show _ = s.stored bus (s.outstandingWrite .commitUnit)
  obtain rfl := Host.Outcome.next.inj e
  unfold State.outstandingWrite
  cases s.commit.outcomeWork <;> cases s.commit.ready <;> rfl

theorem execFaultEntryWrite_mem (bus : BusEvent) {t : State} (e : execFaultEntryWrite bus s = .next t) :
    t.mem = s.stored bus (s.storeOf (.faultEntryWrite bus)) := by
  show _ = s.stored bus (s.outstandingWrite .recorder)
  obtain rfl := Host.Outcome.next.inj e
  unfold State.outstandingWrite
  cases s.recorder.work with
  | idle => rfl
  | searching _ _ _ => rfl
  | writing base entry =>
    cases s.recorder.inHand with
    | none => rfl
    | some f => exact mem_ite (keeps_dropFault _).mem (keeps_recorderFails _).mem

/-- The engine's outstanding write, by the request it has outstanding. -/
theorem outstandingWrite_outcome (h : s.engine.link = .outcomeWrite) :
    s.outstandingWrite .engine = s.engine.slot.bind fun sl => sl.final.map fun f =>
      (sl.header.address + 16#32, outcomeBytes sl.fetchedFrame f.outcome f.failedOp f.rowsStaged) := by
  unfold State.outstandingWrite
  rw [h]
  cases s.engine.slot with
  | none => rfl
  | some sl => cases hf : sl.final <;> simp [hf]

theorem outstandingWrite_readback {row : Nat} {bytes : List Byte} (h : s.engine.link = .readbackWrite row bytes) :
    s.outstandingWrite .engine = s.engine.slot.bind fun sl => sl.op.map fun op => (op.readbackAddress row, bytes) := by
  unfold State.outstandingWrite
  rw [h]
  cases s.engine.slot with
  | none => rfl
  | some sl => cases hop : sl.op <;> simp [hop]

theorem outstandingWrite_other (h : s.engine.link ≠ .outcomeWrite)
    (h' : ∀ row bytes, s.engine.link ≠ .readbackWrite row bytes) : s.outstandingWrite .engine = none := by
  unfold State.outstandingWrite
  dsimp only
  split
  · exact absurd ‹_› h
  · exact absurd ‹_› (h' _ _)
  · rfl

theorem execAbortOutcomeWrite_mem (bus : BusEvent) {t : State} (e : execAbortOutcomeWrite bus s = .next t) :
    t.mem = s.stored bus (s.storeOf (.abortOutcomeWrite bus)) := by
  show _ = s.stored bus (if s.engine.link = .outcomeWrite then s.outstandingWrite .engine else none)
  obtain rfl := Host.Outcome.next.inj e
  split
  · rename_i sl hk hs
    rw [if_pos hk, outstandingWrite_outcome s hk, hs]
    cases hf : sl.final <;> simp [State.stored, hf]
  · rename_i hne
    split
    · rename_i hk
      rw [outstandingWrite_outcome s hk]
      cases hs : s.engine.slot with
      | none => rfl
      | some sl => exact (hne sl hk hs).elim
    · rfl

theorem execReadbackRowWrite_mem (bus : BusEvent) {t : State} (e : execReadbackRowWrite bus s = .next t) :
    t.mem = s.stored bus (s.storeOf (.readbackRowWrite bus)) := by
  show _ = s.stored bus (if s.engine.link = .outcomeWrite then none else s.outstandingWrite .engine)
  obtain rfl := Host.Outcome.next.inj e
  split
  · rename_i row bytes sl hk hs
    rw [if_neg (by rw [hk]; nofun), outstandingWrite_readback s hk, hs]
    cases hop : sl.op with
    | none => simp [State.stored, hop]
    | some op =>
      simp only [State.stored, hop, Option.bind_some, Option.map_some]
      split
      · rfl
      · exact mem_ite rfl (mem_ite rfl rfl)
  · rename_i hne
    split
    · rfl
    · rename_i hk
      by_cases hr : ∃ row bytes, s.engine.link = .readbackWrite row bytes
      · obtain ⟨row, bytes, hr⟩ := hr
        rw [outstandingWrite_readback s hr]
        cases hs : s.engine.slot with
        | none => rfl
        | some sl => exact (hne row bytes sl hr hs).elim
      · rw [outstandingWrite_other s hk fun row bytes h => hr ⟨row, bytes, h⟩]
        rfl

theorem completeBegun_mem (u : BusUnit) (bus : BusEvent) :
    (s.completeBegun (some (u, bus))).mem = s.stored bus (s.outstandingWrite u) := by
  unfold State.completeBegun
  dsimp only
  cases s.outstandingWrite u <;> rfl

/-- A command that ends a bus write puts it into memory; a reset does so with the write it finds begun, unless the
reset pin is held, or finds none begun. -/
theorem exec_stored {c : Instr} (h : reachesMem c = true) {t : State} (e : exec c s = .next t) :
    (∃ bus, c.transfer = some bus ∧ t.mem = s.stored bus (s.storeOf c)) ∨
      t.mem = s.mem ∧ (c.transfer = none ∨ c.isReset = true ∧ s.port.resetPin = true) := by
  have hbegun : ∀ begun, (∃ bus, (Instr.reset begun).transfer = some bus ∧
      (s.completeBegun begun).mem = s.stored bus (s.storeOf (.reset begun))) ∨
      (s.completeBegun begun).mem = s.mem ∧ (Instr.reset begun).transfer = none := fun begun => by
    cases begun with
    | none => exact .inr ⟨rfl, rfl⟩
    | some write => exact .inl ⟨write.2, rfl, completeBegun_mem s write.1 write.2⟩
  cases c with
  | laneRecordWrite bus => exact .inl ⟨bus, rfl, execLaneRecordWrite_mem s bus e⟩
  | committedOutcomeWrite bus => exact .inl ⟨bus, rfl, execCommittedOutcomeWrite_mem s bus e⟩
  | faultEntryWrite bus => exact .inl ⟨bus, rfl, execFaultEntryWrite_mem s bus e⟩
  | abortOutcomeWrite bus => exact .inl ⟨bus, rfl, execAbortOutcomeWrite_mem s bus e⟩
  | readbackRowWrite bus => exact .inl ⟨bus, rfl, execReadbackRowWrite_mem s bus e⟩
  | powerOnReset begun =>
    obtain rfl := Host.Outcome.next.inj e
    exact (hbegun begun).imp id fun ⟨hmem, hnone⟩ => ⟨hmem, .inl hnone⟩
  | resetPinAsserted begun =>
    obtain rfl := Host.Outcome.next.inj e
    exact (hbegun begun).imp id fun ⟨hmem, hnone⟩ => ⟨hmem, .inl hnone⟩
  | reset begun =>
    obtain rfl := Host.Outcome.next.inj e
    split
    · rename_i hpin
      exact .inr ⟨rfl, .inr ⟨rfl, hpin⟩⟩
    · exact (hbegun begun).imp id fun ⟨hmem, hnone⟩ => ⟨hmem, .inl hnone⟩
  | _ => cases h

/-- Settles O60: what a command's write, if it ends one, makes of memory, byte for byte. -/
theorem memoryChangesOnlyByBusWrites : Obligations.MemoryChangesOnlyByBusWrites := by
  intro c s t hwf e
  cases hc : reachesMem c with
  | false =>
    have hstore := storeOf_of_not_reachesMem s c hc
    refine ⟨fun hnone => ?_, fun bus hbus hhost => ⟨fun _ => ?_, fun a bs hab => ?_⟩⟩
    · refine (exec_leavesMem s c hc fun bus hbus => ?_).mem e
      rw [hnone] at hbus
      cases hbus
    · refine (exec_leavesMem s c hc fun bus' hbus' => ?_).mem e
      obtain rfl := Option.some.inj (hbus.symm.trans hbus')
      exact hhost
    · rw [hstore] at hab
      cases hab
  | true =>
    rcases exec_stored s hc e with ⟨bus, hbus, hmem⟩ | ⟨hmem, hwhy⟩
    · refine ⟨fun hnone => ?_, fun bus' hbus' hhost => ?_⟩
      · rw [hnone] at hbus
        cases hbus
      · obtain rfl := Option.some.inj (hbus.symm.trans hbus')
        rw [hmem]
        refine ⟨fun hnone => by rw [hnone]; rfl, fun a bs hab => ?_⟩
        rw [hab]
        exact ⟨fun x hx => read_busWriteMemory_outside hhost hwf hx,
          fun he hlen _ i b hi => read_busWriteMemory_inside hhost he hwf hlen hi⟩
    · rw [hmem]
      refine ⟨fun _ => rfl, fun bus hbus _ => ⟨fun _ => rfl, fun a bs _ => ⟨fun _ _ => rfl, fun _ _ hfree => ?_⟩⟩⟩
      rcases hwhy with hnone | ⟨hreset, hpin⟩
      · rw [hnone] at hbus
        cases hbus
      · rw [hfree hreset] at hpin
        cases hpin

end Sys2Proof.Machine
end

section
/-! PROOFS. The Grant Arbiter's selection (06 R119, R120): a search in ring order finds the nearest lane of its kind,
and the three steps of a selection are three such searches. -/

namespace Sys2Proof.Machine

/-! ## Candidates (06 R119) -/

theorem PartState.grants_iff {p : PartState} : p.grants = true ↔ p = .active ∨ p = .hold := by
  rw [PartState.grants, Bool.or_eq_true, beq_iff_eq, beq_iff_eq]

/-- 05 R103: the entry an eligible lane would hand over. -/
theorem LaneUnit.eligible_iff_exists {u : LaneUnit} :
    u.eligible = true ↔
      u.state = .running ∧ u.flight = none ∧ ∃ e rest, u.intake = e :: rest ∧ e.mark = .ordinary := by
  rw [LaneUnit.eligible_iff]
  cases u.intake <;> simp

theorem candidate_iff {s : State} {l : Lane} :
    s.candidate l = true ↔
      (s.mode.part = .active ∨ s.mode.part = .hold) ∧ (s.lane l).state = .running ∧ (s.lane l).flight = none ∧
      ∃ e rest, (s.lane l).intake = e :: rest ∧ e.mark = .ordinary := by
  rw [State.candidate, Bool.and_eq_true, LaneUnit.eligible_iff_exists, PartState.grants_iff, and_comm]

theorem upperClass_iff {s : State} {l : Lane} :
    s.upperClass l = true ↔ (s.lane l).laneClass = .urgent ∨ (s.arbiter.lanes.get l).promoted = true := by
  rw [State.upperClass, Bool.or_eq_true, beq_iff_eq]
  rfl

/-! ## The ring order (06 R119) -/

/-- The place of a lane in the ring order, counted from the lane after the ring position. -/
def ringPlace (ring l : Lane) : Nat := (l.val + 3 - ring.val) % 4

theorem mem_ringOrder (ring l : Lane) : l ∈ ringOrder ring := by
  revert ring l
  decide

theorem ringOrder_sorted (ring : Lane) : (ringOrder ring).Pairwise fun k l => ringPlace ring k < ringPlace ring l := by
  revert ring
  decide

/-- In a list sorted by `place`, a search finds the match of least place. -/
theorem find?_of_sorted {α : Type} {place : α → Nat} {p : α → Bool} {xs : List α} {x : α}
    (hsorted : xs.Pairwise fun a b => place a < place b) (hmem : x ∈ xs) (hx : p x = true)
    (hleast : ∀ y, p y = true → place x ≤ place y) : xs.find? p = some x := by
  induction xs with
  | nil => cases hmem
  | cons y ys ih =>
    obtain ⟨hfirst, hrest⟩ := List.pairwise_cons.1 hsorted
    rcases List.mem_cons.1 hmem with rfl | hys
    · exact List.find?_cons_of_pos hx
    · have hy : ¬p y = true := fun hy => Nat.not_lt.2 (hleast y hy) (hfirst x hys)
      rw [List.find?_cons_of_neg hy]
      exact ih hrest hys

theorem find?_ringOrder {ring l : Lane} {p : Lane → Bool} (hl : p l = true)
    (hleast : ∀ k, p k = true → ringPlace ring l ≤ ringPlace ring k) : (ringOrder ring).find? p = some l :=
  find?_of_sorted (ringOrder_sorted ring) (mem_ringOrder ring l) hl hleast

theorem find?_ringOrder_none {ring : Lane} {p : Lane → Bool} (h : ∀ k, p k = false) :
    (ringOrder ring).find? p = none :=
  List.find?_eq_none.2 fun k _ => Bool.eq_false_iff.1 (h k)

/-! ## The three steps of a selection (06 R120) -/

section

variable {s : State} {l : Lane}

theorem select_none (h : ∀ k, s.candidate k = false) : s.select = none := by
  have hupper := find?_ringOrder_none (ring := s.arbiter.ring) (p := fun k => s.candidate k && s.upperClass k)
    fun k => by rw [h k, Bool.false_and]
  have hcredit := find?_ringOrder_none (ring := s.arbiter.ring) (p := fun k => s.candidate k && 0 < (s.arb k).credit)
    fun k => by rw [h k, Bool.false_and]
  simp only [State.select, hupper, hcredit, find?_ringOrder_none h]

/-- Step 1: the first candidate of the upper class. -/
theorem select_upper (hc : s.candidate l = true) (hu : s.upperClass l = true)
    (hleast : ∀ k, s.candidate k = true → s.upperClass k = true →
      ringPlace s.arbiter.ring l ≤ ringPlace s.arbiter.ring k) :
    s.select = some ⟨l, false, false⟩ := by
  have hfind := find?_ringOrder (ring := s.arbiter.ring) (l := l) (p := fun k => s.candidate k && s.upperClass k)
    (by rw [hc, hu]; rfl) fun k hk => by
      obtain ⟨hck, huk⟩ := Bool.and_eq_true_iff.1 hk
      exact hleast k hck huk
  simp only [State.select, hfind]

/-- Step 1 finds nobody. -/
theorem find?_upper_none (hno : ∀ k, s.candidate k = true → s.upperClass k = false) :
    ((ringOrder s.arbiter.ring).find? fun k => s.candidate k && s.upperClass k) = none :=
  find?_ringOrder_none fun k => by
    cases hk : s.candidate k with
    | false => rfl
    | true => exact hno k hk

/-- Step 2: the first candidate that has credit. -/
theorem select_credit (hc : s.candidate l = true) (hno : ∀ k, s.candidate k = true → s.upperClass k = false)
    (hl : 0 < (s.arb l).credit)
    (hleast : ∀ k, s.candidate k = true → 0 < (s.arb k).credit →
      ringPlace s.arbiter.ring l ≤ ringPlace s.arbiter.ring k) :
    s.select = some ⟨l, true, false⟩ := by
  have hfind := find?_ringOrder (ring := s.arbiter.ring) (l := l)
    (p := fun k => s.candidate k && 0 < (s.arb k).credit) (by simp [hc, hl]) fun k hk => by
      obtain ⟨hck, hpos⟩ := Bool.and_eq_true_iff.1 hk
      exact hleast k hck (of_decide_eq_true hpos)
  simp only [State.select, find?_upper_none hno, hfind]

/-- Step 3: no candidate has credit, and a new round gives it to the first. -/
theorem select_newRound (hc : s.candidate l = true) (hno : ∀ k, s.candidate k = true → s.upperClass k = false)
    (hspent : ∀ k, s.candidate k = true → (s.arb k).credit = 0)
    (hleast : ∀ k, s.candidate k = true → ringPlace s.arbiter.ring l ≤ ringPlace s.arbiter.ring k) :
    s.select = some ⟨l, true, true⟩ := by
  have hcredit := find?_ringOrder_none (ring := s.arbiter.ring)
    (p := fun k => s.candidate k && 0 < (s.arb k).credit) fun k => by
      cases hk : s.candidate k with
      | false => rfl
      | true => simp [hspent k hk]
  simp only [State.select, find?_upper_none hno, hcredit, find?_ringOrder hc hleast]

/-! ## What a selection makes of the state -/

theorem trySelect_not_asked (h : ¬(s.arbiter.requestWaiting = true ∧ s.arbiter.grant = .none)) : s.trySelect = s :=
  if_neg h

theorem trySelect_none (h : s.select = none) : s.trySelect = s := by
  rw [State.trySelect, h]
  exact ite_self s

/-- 06 R121: the grant is sent to the lane selected. -/
theorem trySelect_some (h : s.arbiter.requestWaiting = true ∧ s.arbiter.grant = .none) {sel : Selection}
    (hsel : s.select = some sel) :
    s.trySelect =
      { s with arbiter := { (if sel.newRound then s.newRound else s).arbiter with
          grant := .sent sel.lane sel.spends } } := by
  rw [State.trySelect, if_pos h, hsel]
  rcases sel with ⟨l, spends, newRound⟩
  cases newRound <;> rfl

/-! ## The commands that lead to a selection -/

theorem execGrantRequest_eq (s : State) :
    exec .grantRequest s = .next
      (if s.engine.state = .idle ∧ (s.mode.part = .active ∨ s.mode.part = .hold) ∧
          s.arbiter.requestWaiting = false then
        ({ s with arbiter := { s.arbiter with requestWaiting := true } } : State).trySelect
      else s) := by
  show execGrantRequest s = _
  simp only [execGrantRequest, PartState.grants_iff]

theorem execEligibilityReport_nil (h : s.mail.eligible = []) : exec .eligibilityReport s = .next s := by
  show execEligibilityReport s = _
  rw [execEligibilityReport, h]

theorem execEligibilityReport_cons {rest : List Lane} (h : s.mail.eligible = l :: rest) :
    exec .eligibilityReport s = .next ({ s with mail := { s.mail with eligible := rest } } : State).trySelect := by
  show execEligibilityReport s = _
  rw [execEligibilityReport, h]

theorem execGrantAnswer_refused {spends : Bool} (h : s.arbiter.grant = .answered l spends false) :
    exec .grantAnswer s = .next ({ s with arbiter := { s.arbiter with grant := .none } } : State).trySelect := by
  show execGrantAnswer s = _
  rw [execGrantAnswer, h]

/-- 06 R122: a grant taken moves the ring position and spends the credit it was chosen for. -/
theorem execGrantAnswer_taken {spends : Bool} (h : s.arbiter.grant = .answered l spends true) :
    exec .grantAnswer s = .next
      { s with arbiter := { s.arbiter with
          grant := .none
          ring := l
          lanes := s.arbiter.lanes.set l
            { credit := (s.arbiter.lanes.get l).credit - spends.toNat, wait := 0, promoted := false
              granted := true } } } := by
  show execGrantAnswer s = _
  rw [execGrantAnswer, h]
  cases spends <;> rfl

end

/-! ## The grant at the Lane Service (05 R103) -/

section

variable {s : State} {l : Lane} {spends : Bool}

theorem execGrant_taken (hg : s.arbiter.grant = .sent l spends) (ha : s.lanes.agenda = [])
    (hidle : s.engine.state = .idle) (hc : s.candidate l = true) {e : IntakeEntry} {rest : List IntakeEntry}
    (hi : (s.lane l).intake = e :: rest) :
    exec .grant s = .next
      { s with
        lanes := { s.lanes with
          lanes := s.lanes.lanes.set l
            { s.lane l with intake := rest, flight := some ⟨e.header.serial, e.header.notify⟩ } }
        engine :=
          { state := .applying
            slot := some
              { lane := l, header := e.header, fetchedFrame := e.commitFrame, opIndex := 0, op := none,
                progress := .none, named := [], abortCause := none, final := none }
            link := .trailerStart, completionsOwed := 0 }
        arbiter := { s.arbiter with grant := .answered l spends true, requestWaiting := false } } := by
  show execGrant s = _
  rw [execGrant, hg, ha, hidle]
  dsimp only
  rw [hc, hi]
  rfl

theorem execGrant_refused (hg : s.arbiter.grant = .sent l spends) (ha : s.lanes.agenda = [])
    (hidle : s.engine.state = .idle) (hc : s.candidate l = false) :
    exec .grant s = .next { s with arbiter := { s.arbiter with grant := .answered l spends false } } := by
  show execGrant s = _
  rw [execGrant, hg, ha, hidle]
  dsimp only
  rw [hc]

theorem execGrant_waits
    (h : (∀ l spends, s.arbiter.grant ≠ .sent l spends) ∨ s.lanes.agenda ≠ [] ∨ s.engine.state ≠ .idle) :
    exec .grant s = .next s := by
  show execGrant s = _
  unfold execGrant
  split
  · rename_i hg ha hidle
    rcases h with h | h | h
    · exact absurd hg (h _ _)
    · exact absurd ha h
    · exact absurd hidle h
  · rfl

end

/-! ## The statements -/

/-- Settles O42: each clause on the selection names the step that finds the lane. -/
theorem selectionGoesByClassCreditAndRing : Obligations.SelectionGoesByClassCreditAndRing := by
  intro s place upper asked
  have hnot : (∀ k, s.candidate k = true → ¬upper k) → ∀ k, s.candidate k = true → s.upperClass k = false :=
    fun hno k hk => Bool.eq_false_iff.2 fun hu => hno k hk (upperClass_iff.1 hu)
  refine ⟨fun l => candidate_iff, trySelect_not_asked, fun hnone => trySelect_none (select_none hnone), ?_, ?_, ?_,
    execGrantRequest_eq s, execEligibilityReport_nil, fun l rest h => execEligibilityReport_cons h,
    fun l spends h => execGrantAnswer_refused h⟩
  · intro l hasked hc hu hleast
    exact trySelect_some hasked
      (select_upper hc (upperClass_iff.2 hu) fun k hk huk => hleast k hk (upperClass_iff.1 huk))
  · intro l hasked hc hno hl hleast
    exact trySelect_some hasked (select_credit hc (hnot hno) hl hleast)
  · intro l hasked hc hno hspent hleast
    exact trySelect_some hasked (select_newRound hc (hnot hno) hspent hleast)

/-- Settles O43, by what stands in the way of the grant and whether the lane is still a candidate. -/
theorem grantIsTakenOrRefused : Obligations.GrantIsTakenOrRefused := by
  intro s
  refine ⟨fun l spends hg ha hidle => ⟨fun e rest hc hi => ?_, fun hc => ?_⟩, execGrant_waits,
    fun l spends h => execGrantAnswer_taken h⟩
  · exact execGrant_taken hg ha hidle hc hi
  · exact execGrant_refused hg ha hidle hc

end Sys2Proof.Machine
end

section
/-! PROOFS. A set at the ends of its run (Chapters 3 and 4): the two trailer reads, the notices and abort requests that
reach the set in flight, and the ready queue that an applied set joins. -/

namespace Sys2Proof.Machine

/-! ## The two trailer reads (03 R52, R57) -/

/-- The outcome with which a trailer read ends the set, if it does: a noted cause first (03 R66), then a bus error, then
another serial. -/
def Slot.trailerOutcome (sl : Slot) : Option (List Byte) → Option SetOutcome
  | none => some (sl.abortCause.elim .transferFault AbortCause.outcome)
  | some bs => sl.abortCause.elim (if halfAt bs 0 = sl.header.serial then none else some .torn) (some ·.outcome)

theorem trailerOutcome_noted {sl : Slot} {c : AbortCause} (h : sl.abortCause = some c) (data : Option (List Byte)) :
    sl.trailerOutcome data = some c.outcome := by
  cases data with
  | none => rw [Slot.trailerOutcome, h]; rfl
  | some bs => rw [Slot.trailerOutcome, h]; rfl

theorem trailerOutcome_error {sl : Slot} (h : sl.abortCause = none) :
    sl.trailerOutcome none = some .transferFault := by
  rw [Slot.trailerOutcome, h]
  rfl

theorem trailerOutcome_clean {sl : Slot} (h : sl.abortCause = none) (bs : List Byte) :
    sl.trailerOutcome (some bs) = if halfAt bs 0 = sl.header.serial then none else some .torn := by
  rw [Slot.trailerOutcome, h]
  rfl

/-- With the slot as it is, moving it on moves only the request. -/
theorem setSlot_of_slot {s : State} {sl : Slot} (h : s.engine.slot = some sl) (k : EngineLink) :
    s.setSlot sl k = s.setLink k := by
  rw [State.setSlot, State.setLink, ← h]

section

variable {s : State} (bus : BusEvent)

theorem execTrailerReadStart_eq {sl : Slot} (hk : s.engine.link = .trailerStart) (hs : s.engine.slot = some sl) :
    exec (.trailerReadStart bus) s = .next
      ((sl.trailerOutcome (s.busData bus sl.header.trailerAddress 16)).elim
        ((s.busRead bus).setLink (if sl.header.opCount = 0 then .trailerEnd else .opRead))
        fun o => (s.busRead bus).abortSet sl false o none) := by
  show execTrailerReadStart bus s = _
  rw [execTrailerReadStart, hk, hs]
  dsimp only
  cases hc : sl.abortCause with
  | some c => rw [trailerOutcome_noted hc]; rfl
  | none =>
    cases s.busData bus sl.header.trailerAddress 16 with
    | none => rw [trailerOutcome_error hc]; rfl
    | some bs =>
      rw [trailerOutcome_clean hc, setSlot_of_slot (s := s.busRead bus) hs]
      dsimp only
      split <;> rfl

theorem execTrailerReadEnd_eq {sl : Slot} (hk : s.engine.link = .trailerEnd) (hs : s.engine.slot = some sl) :
    exec (.trailerReadEnd bus) s = .next
      ((sl.trailerOutcome (s.busData bus sl.header.trailerAddress 16)).elim ((s.busRead bus).setLink .readyAppend)
        fun o => (s.busRead bus).abortSet sl true o none) := by
  show execTrailerReadEnd bus s = _
  rw [execTrailerReadEnd, hk, hs]
  dsimp only
  cases hc : sl.abortCause with
  | some c => rw [trailerOutcome_noted hc]; rfl
  | none =>
    cases s.busData bus sl.header.trailerAddress 16 with
    | none => rw [trailerOutcome_error hc]; rfl
    | some bs =>
      rw [trailerOutcome_clean hc]
      dsimp only
      split <;> rfl

theorem execTrailerReadStart_unasked (h : s.engine.link ≠ .trailerStart) :
    exec (.trailerReadStart bus) s = .next s := by
  show execTrailerReadStart bus s = _
  unfold execTrailerReadStart
  split
  · exact absurd ‹_› h
  · rfl

theorem execTrailerReadEnd_unasked (h : s.engine.link ≠ .trailerEnd) : exec (.trailerReadEnd bus) s = .next s := by
  show execTrailerReadEnd bus s = _
  unfold execTrailerReadEnd
  split
  · exact absurd ‹_› h
  · rfl

/-- The four ways a trailer read ends, from what it makes of the outcome. -/
theorem trailerRead_cases {sl : Slot} {r : Result} {onward : State} {unwind : Bool}
    (h : r = .next
      ((sl.trailerOutcome (s.busData bus sl.header.trailerAddress 16)).elim onward
        fun o => (s.busRead bus).abortSet sl unwind o none)) :
    let closing :=
      halfAt (Memory.readBytes (Memory.hostWrites s.mem bus.host) sl.header.trailerAddress 16) 0
    (∀ c, sl.abortCause = some c → r = .next ((s.busRead bus).abortSet sl unwind c.outcome none)) ∧
    (sl.abortCause = none → bus.error ≠ none →
      r = .next ((s.busRead bus).abortSet sl unwind .transferFault none)) ∧
    (sl.abortCause = none → bus.error = none → closing ≠ sl.header.serial →
      r = .next ((s.busRead bus).abortSet sl unwind .torn none)) ∧
    (sl.abortCause = none → bus.error = none → closing = sl.header.serial → r = .next onward) := by
  subst h
  refine ⟨fun c hc => ?_, fun hc he => ?_, fun hc he hne => ?_, fun hc he heq => ?_⟩
  · rw [trailerOutcome_noted hc]
    rfl
  · rw [busData_error s he, trailerOutcome_error hc]
    rfl
  · rw [busData_clean s he, trailerOutcome_clean hc, if_neg hne]
    rfl
  · rw [busData_clean s he, trailerOutcome_clean hc, if_pos heq]
    rfl

end

/-! ## Release notices (03 R62, R63) -/

section

variable {s : State} {lines : Nat} {rest : List Nat}

theorem execReleaseNotice_nil (h : s.mail.releaseNotices = []) : exec .releaseNotice s = .next s := by
  show execReleaseNotice s = _
  rw [execReleaseNotice, h]

theorem execReleaseNotice_discarded (h : s.mail.releaseNotices = lines :: rest)
    (hnot : s.engine.state ≠ .starved ∨ s.engine.slot = none) :
    exec .releaseNotice s = .next { s with mail := { s.mail with releaseNotices := rest } } := by
  show execReleaseNotice s = _
  rw [execReleaseNotice, h]
  dsimp only
  split
  · rename_i hstate hslot
    rcases hnot with hnot | hnot
    · exact absurd hstate hnot
    · cases hslot.symm.trans hnot
  · rfl

theorem execReleaseNotice_starved {sl : Slot} (h : s.mail.releaseNotices = lines :: rest)
    (hstate : s.engine.state = .starved) (hs : s.engine.slot = some sl) :
    exec .releaseNotice s = .next
      (if lines = 0 then
        ({ s with mail := { s.mail with releaseNotices := rest } } : State).abortSet sl true .noRoom (some sl.opIndex)
      else
        { s with
          mail := { s.mail with releaseNotices := rest }
          engine := { s.engine with state := .applying, link := .writeClaim sl.progress.refusedRow } }) := by
  show execReleaseNotice s = _
  rw [execReleaseNotice, h]
  dsimp only
  rw [hstate, hs]

end

theorem refusedRow_of_claim {p : Progress} {row : Nat} (h : p = .fill row ∨ p = .blitClaim row) :
    p.refusedRow = row := by
  rcases h with rfl | rfl <;> rfl

/-! ## Abort requests (03 R65 to R69) -/

theorem ApplyEngine.free_iff {e : ApplyEngine} : e.free = true ↔ e.link = .quiet ∨ e.link = .readyAppend := by
  unfold ApplyEngine.free
  cases e.link <;> simp

theorem requestAbort_eq (s : State) (sl : Slot) (c : AbortCause) :
    s.requestAbort sl c =
      if sl.final ≠ none ∨ sl.abortCause ≠ none then s
      else if s.engine.link = .quiet ∨ s.engine.link = .readyAppend then s.abortSet sl true c.outcome none
      else { s with engine := { s.engine with slot := some { sl with abortCause := some c } } } := by
  simp only [State.requestAbort, Bool.or_eq_true, Option.isSome_iff_ne_none, ApplyEngine.free_iff]

section

variable {s : State}

theorem execAbortRequestStop_none (h : s.mail.abortStop = false) : exec .abortRequestStop s = .next s := by
  show execAbortRequestStop s = _
  rw [execAbortRequestStop, h]
  rfl

theorem execAbortRequestStop_empty (h : s.mail.abortStop = true) (hs : s.engine.slot = none) :
    exec .abortRequestStop s = .next { s with mail := { s.mail with abortStop := false } } := by
  show execAbortRequestStop s = _
  rw [execAbortRequestStop, if_pos h]
  dsimp only
  rw [hs]

theorem execAbortRequestStop_slot {sl : Slot} (h : s.mail.abortStop = true) (hs : s.engine.slot = some sl) :
    exec .abortRequestStop s = .next
      (({ s with mail := { s.mail with abortStop := false } } : State).requestAbort sl .stopped) := by
  show execAbortRequestStop s = _
  rw [execAbortRequestStop, if_pos h]
  dsimp only
  rw [hs]

variable {l : Lane} {rest : List Lane}

theorem execAbortRequestLane_nil (h : s.mail.abortLanes = []) : exec .abortRequestLane s = .next s := by
  show execAbortRequestLane s = _
  rw [execAbortRequestLane, h]

/-- 03 R67: with no set of the lane in flight, completion is reported at once. -/
theorem execAbortRequestLane_other (h : s.mail.abortLanes = l :: rest)
    (hs : ∀ sl, s.engine.slot = some sl → sl.lane ≠ l) :
    exec .abortRequestLane s = .next
      { s with mail := { s.mail with
          abortLanes := rest, engineReports := s.mail.engineReports ++ [.completion l] } } := by
  show execAbortRequestLane s = _
  rw [execAbortRequestLane, h]
  dsimp only
  cases hslot : s.engine.slot with
  | none => rfl
  | some sl => exact congrArg Host.Outcome.next (if_neg (hs sl hslot))

theorem execAbortRequestLane_slot {sl : Slot} (h : s.mail.abortLanes = l :: rest) (hs : s.engine.slot = some sl)
    (hl : sl.lane = l) :
    exec .abortRequestLane s = .next
      (({ s with
          mail := { s.mail with abortLanes := rest }
          engine := { s.engine with completionsOwed := s.engine.completionsOwed + 1 } } : State).requestAbort sl
        .dropped) := by
  show execAbortRequestLane s = _
  rw [execAbortRequestLane, h]
  dsimp only
  rw [hs]
  exact congrArg Host.Outcome.next (if_pos hl)

end

/-! ## The ready queue (04 R83, R85, R86) -/

section

variable {s : State}

theorem execReadyAppend_joined {sl : Slot} (hk : s.engine.link = .readyAppend) (hs : s.engine.slot = some sl) :
    exec .readyAppend s = .next
      { s with
        commit := { s.commit with ready := s.commit.ready ++
          [{ header := sl.header, lane := sl.lane, condition := .waiting, commitFrame := 0, rowsStaged := 0 }] }
        engine := .reset } := by
  show execReadyAppend s = _
  rw [execReadyAppend, hk, hs]

theorem execReadyAppend_unasked (h : s.engine.link ≠ .readyAppend ∨ s.engine.slot = none) :
    exec .readyAppend s = .next s := by
  show execReadyAppend s = _
  unfold execReadyAppend
  split
  · rename_i hk hs
    rcases h with h | h
    · exact absurd hk h
    · cases hs.symm.trans h
  · rfl

theorem execCommitBoundary_waits (h : s.mail.commitBoundary = [] ∨ s.commit.inProgress = true) :
    exec .commitBoundary s = .next s := by
  show execCommitBoundary s = _
  unfold execCommitBoundary
  split
  · rename_i hb hp
    rcases h with h | h
    · cases hb.symm.trans h
    · cases hp.symm.trans h
  · rfl

/-- The state in which a boundary has taken the sets that wait. -/
def State.takeWaiting (s : State) (frame : Word) (rest : List Word) : State :=
  { s with
    mail := { s.mail with commitBoundary := rest }
    commit := { s.commit with
      inProgress := true, take := s.commit.waitingSets, frame := frame, published := 0, returned := 0,
      changed := false } }

theorem execCommitBoundary_eq {frame : Word} {rest : List Word} (hb : s.mail.commitBoundary = frame :: rest)
    (hp : s.commit.inProgress = false) :
    exec .commitBoundary s = .next
      (if s.commit.waitingSets.isEmpty then (s.takeWaiting frame rest).completePublication
      else s.takeWaiting frame rest) := by
  show execCommitBoundary s = _
  rw [execCommitBoundary, hb, hp]
  rfl

theorem execPublicationComplete_done (hp : s.commit.inProgress = true) (ht : s.commit.take = []) :
    exec .publicationComplete s = .next s.completePublication := by
  show execPublicationComplete s = _
  rw [execPublicationComplete, hp, ht]

end

/-! ## The statements -/

/-- Settles O32: both reads make one test, and go on or end the set each in its own way. -/
theorem trailerReadsCompareTheSerial : Obligations.TrailerReadsCompareTheSerial := by
  intro bus s mem t
  refine ⟨execTrailerReadStart_unasked bus, execTrailerReadEnd_unasked bus, fun sl hs => ?_⟩
  intro closing ended
  exact ⟨fun hk => trailerRead_cases bus (execTrailerReadStart_eq bus hk hs),
    fun hk => trailerRead_cases bus (execTrailerReadEnd_eq bus hk hs)⟩

/-- Settles O40: notices by the engine's state, requests by the set in the slot. -/
theorem noticesReachTheSetInFlight : Obligations.NoticesReachTheSetInFlight := by
  intro s request
  have hrequest : ∀ (t : State) sl c, t.engine.link = s.engine.link → t.requestAbort sl c = request t sl c := by
    intro t sl c hlink
    rw [requestAbort_eq, hlink]
    rfl
  refine ⟨execReleaseNotice_nil, fun lines rest h => ⟨execReleaseNotice_discarded h, fun sl hstate hs => ?_⟩,
    execAbortRequestStop_none, fun h => ⟨execAbortRequestStop_empty h, fun sl hs => ?_⟩,
    execAbortRequestLane_nil, fun l rest h => ⟨execAbortRequestLane_other h, fun sl hs hl => ?_⟩⟩
  · rw [execReleaseNotice_starved h hstate hs]
    refine ⟨fun hzero => ?_, fun row hpos hrow => ?_⟩
    · rw [if_pos hzero]
      rfl
    · rw [if_neg hpos.ne', refusedRow_of_claim hrow]
  · rw [execAbortRequestStop_slot h hs, hrequest]
    rfl
  · rw [execAbortRequestLane_slot h hs hl, hrequest]
    rfl

/-- Settles O20: with no set taken, the boundary is the publication's end. -/
theorem readyQueueIsJoinedAndTaken : Obligations.ReadyQueueIsJoinedAndTaken := by
  refine ⟨fun s => ⟨fun sl => execReadyAppend_joined, execReadyAppend_unasked⟩,
    fun s => ⟨execCommitBoundary_waits, fun frame rest hb hp => ?_⟩⟩
  intro take taken
  rw [execCommitBoundary_eq hb hp]
  refine ⟨fun hne => ?_, fun hnil => ?_⟩
  · exact congrArg Host.Outcome.next (if_neg (mt List.isEmpty_iff.1 hne))
  · rw [execPublicationComplete_done (s := taken) rfl hnil]
    exact congrArg Host.Outcome.next (if_pos (List.isEmpty_iff.2 hnil))

end Sys2Proof.Machine
end

section
/-! PROOFS. The sets in flight (04 R82, R89, 05 R103, R105): what the invariant reads of a state, and how a set
passes from the engine through the ready queue or an end report to its release. -/

namespace Sys2Proof.Machine

/-! ## What the invariants read of a state -/

/-- The two steps of the agenda that end a set's flight: the flight note is cleared (05 R105), the Commit Unit hears
that its report was taken (04 R89). -/
def LaneTask.endsFlight : LaneTask → Bool
  | .clearFlight _ | .reportTaken => true
  | _ => false

/-- The lane whose set a report of the engine ends, if it ends one. -/
def EngineReport.endedLane : EngineReport → Option Lane
  | .ended r => some r.lane
  | .completion _ => none

/-- Where the sets in flight are, lane by lane: what `State.FlightConsistent` reads. -/
structure Flights where
  notes    : Lane → Option FlightNote
  steps    : List LaneTask
  slot     : Option Lane
  ready    : List Lane
  reported : Bool
  report   : Option EndReport
  ended    : List Lane

/-- The sets in flight of a state. -/
def State.flights (s : State) : Flights where
  notes l := (s.lane l).flight
  steps := s.lanes.agenda.filter LaneTask.endsFlight
  slot := s.engine.slot.map Slot.lane
  ready := s.commit.ready.map ReadyEntry.lane
  reported := s.commit.outcomeWork == .reported
  report := s.mail.commitReport
  ended := s.mail.engineReports.filterMap EngineReport.endedLane

namespace Flights

/-- How many sets of the lane are in flight. -/
def inFlight (f : Flights) (l : Lane) : Nat := f.slot.toList.count l + f.ready.count l + f.ended.count l

/-- The lane's entry of the ready queue is about to leave. -/
def leaving (f : Flights) (l : Lane) : Prop := .reportTaken ∈ f.steps ∧ f.ready.head? = some l

/-- `State.FlightConsistent` of what it reads. -/
structure Consistent (f : Flights) : Prop where
  one      : ∀ l, f.inFlight l ≤ 1
  noted    : ∀ l, f.inFlight l = 0 ∨ f.notes l ≠ none ∨ f.leaving l
  clearing : ∀ l, .clearFlight l ∈ f.steps → f.inFlight l = 0 ∨ f.leaving l
  reported : ∀ r, f.report = some r → f.reported = true ∧ .reportTaken ∉ f.steps ∧ f.ready.head? = some r.lane
  taking   : .reportTaken ∈ f.steps →
               f.reported = true ∧ f.report = none ∧ f.ready ≠ [] ∧ f.steps.count .reportTaken = 1

end Flights

/-- The three places of a set in flight, each by its own list of lanes. -/
theorem setsInFlight_eq (s : State) (l : Lane) : s.setsInFlight l = s.flights.inFlight l := by
  have hslot : (s.engine.slot.toList.filter fun sl => sl.lane == l).length = (s.flights.slot.toList).count l := by
    unfold State.flights
    cases s.engine.slot with
    | none => rfl
    | some sl => by_cases h : sl.lane = l <;> simp [h]
  have hready : s.commit.ready.countP (fun e => e.lane == l) = s.flights.ready.count l := by
    simp only [State.flights, List.count, List.countP_map]
    rfl
  have hended : s.mail.engineReports.countP (EngineReport.endsSetOf l) = s.flights.ended.count l := by
    simp only [State.flights, List.count, List.countP_filterMap]
    refine List.countP_congr fun r _ => ?_
    cases r <;> simp [EngineReport.endsSetOf, EngineReport.endedLane]
  rw [State.setsInFlight, hslot, hready, hended]
  rfl

theorem leaving_iff (s : State) (l : Lane) : s.leaving l ↔ s.flights.leaving l := by
  simp [State.leaving, Flights.leaving, State.flights, List.mem_filter, LaneTask.endsFlight, List.head?_map]

/-- The invariant reads of a state its flights alone. -/
theorem flightConsistent_iff (s : State) : s.FlightConsistent ↔ s.flights.Consistent := by
  have hclear : ∀ l, .clearFlight l ∈ s.flights.steps ↔ .clearFlight l ∈ s.lanes.agenda := fun l => by
    simp [State.flights, List.mem_filter, LaneTask.endsFlight]
  have htaken : .reportTaken ∈ s.flights.steps ↔ .reportTaken ∈ s.lanes.agenda := by
    simp [State.flights, List.mem_filter, LaneTask.endsFlight]
  have hcount : s.flights.steps.count .reportTaken = s.lanes.agenda.count .reportTaken :=
    List.count_filter rfl
  have hhead : s.flights.ready.head? = s.commit.ready.head?.map fun e => e.lane := List.head?_map
  have hnil : s.flights.ready ≠ [] ↔ s.commit.ready ≠ [] := by simp [State.flights]
  have hreported : s.flights.reported = true ↔ s.commit.outcomeWork = .reported := beq_iff_eq
  constructor
  · rintro ⟨one, noted, clearing, reported, taking⟩
    simp only [setsInFlight_eq, leaving_iff, ← hclear, ← htaken, ← hcount, ← hhead, ← hnil, ← hreported]
      at one noted clearing reported taking
    exact ⟨one, noted, clearing, reported, taking⟩
  · rintro ⟨one, noted, clearing, reported, taking⟩
    simp only [hclear, htaken, hcount, hhead, hnil, hreported, ← setsInFlight_eq, ← leaving_iff]
      at one noted clearing reported taking
    exact ⟨one, noted, clearing, reported, taking⟩

/-! ## How sets begin, go on and end their flight -/

namespace Flights

variable {f : Flights} {l : Lane}

/-- With nothing left on the agenda, a lane with its flight note clear has no set in flight. -/
theorem Consistent.none_in_flight (h : f.Consistent) (hsteps : f.steps = []) (hnote : f.notes l = none) :
    f.inFlight l = 0 := by
  rcases h.noted l with h0 | hne | ⟨htaken, -⟩
  · exact h0
  · exact absurd hnote hne
  · rw [hsteps] at htaken
    cases htaken

/-- 05 R103: the set of a lane that has none in flight goes to the engine, and the flight note is set. -/
theorem Consistent.granted (h : f.Consistent) (hsteps : f.steps = []) (hnote : f.notes l = none)
    {notes : Lane → Option FlightNote} (hset : notes l ≠ none) (hother : ∀ k, k ≠ l → notes k = f.notes k) :
    Consistent { f with notes := notes, slot := some l } := by
  have hcount : ∀ k, k ≠ l → inFlight { f with notes := notes, slot := some l } k ≤ f.inFlight k := by
    intro k hk
    simp [inFlight, Ne.symm hk]
  have hown : inFlight { f with notes := notes, slot := some l } l ≤ 1 := by
    have h0 := h.none_in_flight hsteps hnote
    simp only [inFlight] at h0 ⊢
    simp only [Option.toList_some, List.count_singleton_self]
    omega
  refine ⟨fun k => ?_, fun k => ?_, ?_, h.reported, h.taking⟩
  · by_cases hk : k = l
    · exact hk ▸ hown
    · exact (hcount k hk).trans (h.one k)
  · by_cases hk : k = l
    · exact .inr (.inl (hk ▸ hset))
    · rcases h.noted k with h0 | hne | hleaving
      · exact .inl (Nat.le_zero.1 (h0 ▸ hcount k hk))
      · exact .inr (.inl (by rw [← hother k hk] at hne; exact hne))
      · exact .inr (.inr hleaving)
  · intro k hk
    rw [hsteps] at hk
    cases hk

/-- A set in flight passes from one unit to the next: from the engine to the ready queue (04 R83), or out of the engine
with its end report under way (03 R59). -/
theorem Consistent.moved (h : f.Consistent) {slot : Option Lane} {ready ended : List Lane}
    (hcount : ∀ k, inFlight { f with slot := slot, ready := f.ready ++ ready, ended := ended } k = f.inFlight k) :
    Consistent { f with slot := slot, ready := f.ready ++ ready, ended := ended } := by
  have hhead : ∀ k, f.ready.head? = some k → (f.ready ++ ready).head? = some k := fun k hk => by
    rw [List.head?_append, hk]
    rfl
  have hleaving : ∀ k, f.leaving k → leaving { f with slot := slot, ready := f.ready ++ ready, ended := ended } k :=
    fun k ⟨htaken, hk⟩ => ⟨htaken, hhead k hk⟩
  refine ⟨fun k => (hcount k).le.trans (h.one k), fun k => ?_, fun k hk => ?_, fun r hr => ?_, fun htaken => ?_⟩
  · rw [hcount k]
    exact (h.noted k).imp_right (.imp_right (hleaving k))
  · rw [hcount k]
    exact (h.clearing k hk).imp_right (hleaving k)
  · obtain ⟨hreported, hnot, hk⟩ := h.reported r hr
    exact ⟨hreported, hnot, hhead _ hk⟩
  · obtain ⟨hreported, hnone, hne, hone⟩ := h.taking htaken
    exact ⟨hreported, hnone, List.append_ne_nil_of_left_ne_nil hne _, hone⟩

/-- 04 R83. -/
theorem Consistent.appended (h : f.Consistent) (hslot : f.slot = some l) :
    Consistent { f with slot := none, ready := f.ready ++ [l] } :=
  h.moved (slot := none) (ended := f.ended) fun k => by
    simp only [inFlight, hslot, List.count_append, Option.toList_some, Option.toList_none, List.count_nil]
    omega

/-- 03 R59. -/
theorem Consistent.aborted (h : f.Consistent) (hslot : f.slot = some l) :
    Consistent { f with slot := none, ended := f.ended ++ [l] } := by
  have hmoved := h.moved (slot := none) (ready := []) (ended := f.ended ++ [l]) fun k => by
    simp only [inFlight, hslot, List.count_append, Option.toList_some, Option.toList_none, List.count_nil]
    omega
  rwa [List.append_nil] at hmoved

/-- 05 R105: the engine's end report is taken; the set it ended was the lane's only one. -/
theorem Consistent.endTaken (h : f.Consistent) {rest : List Lane} (hsteps : f.steps = [])
    (hended : f.ended = l :: rest) :
    Consistent { f with ended := rest, steps := [.clearFlight l] } := by
  have hcount : ∀ k, f.inFlight k = inFlight { f with ended := rest, steps := [.clearFlight l] } k + [l].count k := by
    intro k
    simp only [inFlight, hended, List.count_cons, List.count_nil]
    omega
  have hnone : ∀ k, ¬f.leaving k := fun k ⟨htaken, _⟩ => by
    rw [hsteps] at htaken
    cases htaken
  refine ⟨fun k => ?_, fun k => ?_, fun k hk => .inl ?_, fun r hr => ?_, fun htaken => ?_⟩
  · have := h.one k
    have := hcount k
    omega
  · refine (h.noted k).imp (fun h0 => ?_) (.imp_right fun hleaving => absurd hleaving (hnone k))
    have := hcount k
    omega
  · cases List.mem_singleton.1 hk
    have h1 := h.one l
    have h2 := hcount l
    rw [List.count_singleton_self] at h2
    omega
  · obtain ⟨hreported, -, hhead⟩ := h.reported r hr
    exact ⟨hreported, by simp, hhead⟩
  · cases List.mem_singleton.1 htaken

/-- 04 R89: the write of the head entry's outcome has ended, and its report goes out. -/
theorem Consistent.outcomeWritten (h : f.Consistent) (hnot : f.reported = false) {r : EndReport}
    (hhead : f.ready.head? = some r.lane) : Consistent { f with reported := true, report := some r } := by
  have hsteps : .reportTaken ∉ f.steps := fun htaken => by
    obtain ⟨hreported, -⟩ := h.taking htaken
    cases hnot.symm.trans hreported
  refine ⟨h.one, h.noted, h.clearing, fun r' hr' => ?_, fun htaken => absurd htaken hsteps⟩
  cases hr'
  exact ⟨rfl, hsteps, hhead⟩

/-- 05 R105, 04 R89: the Commit Unit's end report is taken; the entry at the head is about to leave. -/
theorem Consistent.reportReceived (h : f.Consistent) {r : EndReport} (hsteps : f.steps = []) (hr : f.report = some r) :
    Consistent { f with report := none, steps := [.clearFlight r.lane, .reportTaken] } := by
  obtain ⟨hreported, -, hhead⟩ := h.reported r hr
  have hleaving : leaving { f with report := none, steps := [.clearFlight r.lane, .reportTaken] } r.lane :=
    ⟨by simp, hhead⟩
  refine ⟨h.one, fun k => ?_, fun k hk => ?_, nofun, fun _ => ⟨hreported, rfl, ?_, by simp⟩⟩
  · refine (h.noted k).imp_right (.imp_right fun ⟨htaken, _⟩ => ?_)
    rw [hsteps] at htaken
    cases htaken
  · have hk : k = r.lane := by simpa using hk
    exact .inr (hk ▸ hleaving)
  · intro hnil
    have hnil : f.ready = [] := hnil
    rw [hnil] at hhead
    cases hhead

/-- 05 R105: the flight note is cleared when the lane's set has ended, or is about to leave the ready queue. -/
theorem Consistent.noteCleared (h : f.Consistent) {rest : List LaneTask} (hsteps : f.steps = .clearFlight l :: rest)
    {notes : Lane → Option FlightNote} (hother : ∀ k, k ≠ l → notes k = f.notes k) :
    Consistent { f with notes := notes, steps := rest } := by
  have htaken : .reportTaken ∈ f.steps ↔ .reportTaken ∈ rest := by rw [hsteps]; simp
  have hleaving : ∀ k, f.leaving k → leaving { f with notes := notes, steps := rest } k :=
    fun k ⟨hk, hhead⟩ => ⟨htaken.1 hk, hhead⟩
  refine ⟨h.one, fun k => ?_, fun k hk => ?_, fun r hr => ?_, fun hk => ?_⟩
  · by_cases hk : k = l
    · subst hk
      exact (h.clearing k (hsteps ▸ List.mem_cons_self)).imp_right fun hk => .inr (hleaving k hk)
    · refine (h.noted k).imp_right (.imp (fun hne => ?_) (hleaving k))
      rw [← hother k hk] at hne
      exact hne
  · exact (h.clearing k (hsteps ▸ List.mem_cons_of_mem _ hk)).imp_right (hleaving k)
  · obtain ⟨hreported, hnot, hhead⟩ := h.reported r hr
    exact ⟨hreported, mt htaken.2 hnot, hhead⟩
  · obtain ⟨hreported, hnone, hne, hcount⟩ := h.taking (htaken.2 hk)
    rw [hsteps, List.count_cons_of_ne (show LaneTask.clearFlight l ≠ .reportTaken from nofun)] at hcount
    exact ⟨hreported, hnone, hne, hcount⟩

/-- 04 R89: the entry at the head leaves the ready queue, the lane's only set in flight. -/
theorem Consistent.headLeft (h : f.Consistent) {rest : List LaneTask} (hsteps : f.steps = .reportTaken :: rest) :
    Consistent { f with ready := f.ready.tail, reported := false, steps := rest } := by
  obtain ⟨hreported, hnone, hne, hcount⟩ := h.taking (hsteps ▸ List.mem_cons_self)
  obtain ⟨k₀, ready, hready⟩ := List.exists_cons_of_ne_nil hne
  have hrest : .reportTaken ∉ rest := by
    rw [hsteps, List.count_cons_self] at hcount
    exact List.count_eq_zero.1 (by omega)
  have hcount : ∀ k, f.inFlight k =
      inFlight { f with ready := f.ready.tail, reported := false, steps := rest } k + [k₀].count k := by
    intro k
    simp only [inFlight, hready, List.tail_cons, List.count_cons, List.count_nil]
    omega
  have hgone : ∀ k, f.inFlight k = 0 ∨ f.leaving k →
      inFlight { f with ready := f.ready.tail, reported := false, steps := rest } k = 0 := by
    rintro k (h0 | ⟨-, hhead⟩)
    · have := hcount k
      omega
    · rw [hready] at hhead
      cases hhead
      have h1 := h.one k₀
      have h2 := hcount k₀
      rw [List.count_singleton_self] at h2
      omega
  refine ⟨fun k => ?_, fun k => ?_, fun k hk => .inl ?_, fun r hr => ?_, fun hk => absurd hk hrest⟩
  · have := h.one k
    have := hcount k
    omega
  · rcases h.noted k with h0 | hnote | hleaving
    · exact .inl (hgone k (.inl h0))
    · exact .inr (.inl hnote)
    · exact .inl (hgone k (.inr hleaving))
  · exact hgone k (h.clearing k (hsteps ▸ List.mem_cons_of_mem _ hk))
  · cases hnone.symm.trans hr

/-- 04 R82: the ready queue holds at most one entry for each lane. -/
theorem Consistent.ready_nodup (h : f.Consistent) : f.ready.Nodup := by
  refine List.nodup_iff_count_le_one.2 fun l => ?_
  have := h.one l
  unfold inFlight at this
  omega

theorem Consistent.ready_length (h : f.Consistent) : f.ready.length ≤ 4 := h.ready_nodup.length_le_card

end Flights

end Sys2Proof.Machine
end

section
/-! PROOFS. Capacities (04 R82, 05 R93, R102, 06 R116, 07 R127, 08 R148), together with the sets in flight, and how the
Lane Service's operations and commands keep them. -/

namespace Sys2Proof.Machine

/-! ## Capacities (04 R82, 05 R93, R102, 06 R116, 07 R127, 08 R148) -/

/-- The counters outside the Lane Service: credits and wait counts, the idle-boundary count, the waiting fault
requests. -/
structure Counters where
  arbiter : PerLane ArbiterLane
  idle    : Nat
  faults  : Nat

/-- The counters of a state. -/
def State.counters (s : State) : Counters where
  arbiter := s.arbiter.lanes
  idle := s.mode.idleCount
  faults := s.recorder.queue.length

/-- 06 R116, 07 R127, 08 R148: the counters are within their ranges. -/
structure Counters.Fit (c : Counters) : Prop where
  credit : ∀ l, (c.arbiter.get l).credit ≤ 15
  wait   : ∀ l, (c.arbiter.get l).wait ≤ 255
  idle   : c.idle ≤ 255
  faults : c.faults ≤ 8

/-- 05 R93, R102: the intake queue and the aborts outstanding of one lane are within their ranges. -/
structure LaneUnit.Fits (u : LaneUnit) : Prop where
  intake  : u.intake.length ≤ 2
  aborts  : u.abortsOutstanding ≤ 1
  awaited : u.state ≠ .draining → u.abortsOutstanding = 0

/-- Every lane is within its ranges, and a lane that a fetch is under way for has room for one entry more. -/
structure State.LanesFit (s : State) : Prop where
  unit     : ∀ l, (s.lane l).Fits
  fetching : ∀ l, s.fetching = some l → (s.lane l).intake.length < 2

/-- `State.WithinCapacity` and `State.FlightConsistent` in one, part by part. -/
structure State.Orderly (s : State) : Prop where
  lanes    : s.LanesFit
  counters : s.counters.Fit
  flights  : s.flights.Consistent

theorem orderly_iff (s : State) : s.Orderly ↔ s.WithinCapacity ∧ s.FlightConsistent := by
  constructor
  · rintro ⟨⟨unit, fetching⟩, ⟨credit, wait, idle, faults⟩, flights⟩
    have hready : s.commit.ready.length ≤ 4 :=
      (List.length_map (as := s.commit.ready) ReadyEntry.lane).symm.trans_le flights.ready_length
    exact ⟨⟨fun l => (unit l).intake, fetching, hready, flights.ready_nodup, fun l => (unit l).aborts,
      fun l => (unit l).awaited, credit, wait, idle, faults⟩, (flightConsistent_iff s).2 flights⟩
  · rintro ⟨⟨intake, fetching, -, -, aborts, awaited, credit, wait, idle, faults⟩, flights⟩
    exact ⟨⟨fun l => ⟨intake l, aborts l, awaited l⟩, fetching⟩, ⟨credit, wait, idle, faults⟩,
      (flightConsistent_iff s).1 flights⟩

/-- What the invariants read outside the lanes' own shares. -/
structure Tally where
  counters : Counters
  flights  : Flights

/-- The tally of a state. -/
def State.tally (s : State) : Tally := ⟨s.counters, s.flights⟩

/-- All that the invariants read of a state. -/
structure Ledger where
  lanes : PerLane LaneUnit
  job   : Option BoundaryJob
  tally : Tally

/-- The ledger of a state. -/
def State.ledger (s : State) : Ledger := ⟨s.lanes.lanes, s.lanes.job, s.tally⟩

section

variable {s t : State}

theorem State.LanesFit.congr (h : s.LanesFit) (hl : t.lanes.lanes = s.lanes.lanes) (hj : t.lanes.job = s.lanes.job) :
    t.LanesFit := by
  have hlane : ∀ l, t.lane l = s.lane l := fun l => by rw [State.lane, hl]; rfl
  have hfetching : t.fetching = s.fetching := by rw [State.fetching, hj]; rfl
  exact ⟨fun l => hlane l ▸ h.unit l, fun l hf => hlane l ▸ h.fetching l (hfetching ▸ hf)⟩

theorem State.Orderly.of_tally (hs : s.Orderly) (h : t.tally = s.tally) (ht : t.LanesFit) : t.Orderly := by
  have hcounters : t.counters = s.counters := congrArg Tally.counters h
  have hflights : t.flights = s.flights := congrArg Tally.flights h
  exact ⟨ht, hcounters ▸ hs.counters, hflights ▸ hs.flights⟩

theorem State.Orderly.of_ledger (hs : s.Orderly) (h : t.ledger = s.ledger) : t.Orderly :=
  hs.of_tally (congrArg Ledger.tally h) (hs.lanes.congr (congrArg Ledger.lanes h) (congrArg Ledger.job h))

/-- The lanes' own shares are as they were. -/
theorem State.Orderly.of_parts (hs : s.Orderly) (hl : t.lanes.lanes = s.lanes.lanes) (hj : t.lanes.job = s.lanes.job)
    (hc : t.counters.Fit) (hf : t.flights.Consistent) : t.Orderly :=
  ⟨hs.lanes.congr hl hj, hc, hf⟩

end

/-! ## The Lane Service's operations -/

/-- Nothing but the lanes' own shares differs in `t`, as far as the invariants read, and they fit if those of `s` do. -/
structure State.KeepsFit (s t : State) : Prop where
  tally : t.tally = s.tally
  lanes : s.LanesFit → t.LanesFit

section

variable {s t u : State} {l : Lane}

theorem State.KeepsFit.refl (s : State) : s.KeepsFit s := ⟨rfl, id⟩

theorem State.KeepsFit.trans (h : s.KeepsFit t) (h' : t.KeepsFit u) : s.KeepsFit u :=
  ⟨h'.tally.trans h.tally, h'.lanes ∘ h.lanes⟩

theorem keepsFit_of_ledger (h : t.ledger = s.ledger) : s.KeepsFit t :=
  ⟨congrArg Ledger.tally h, fun hs => hs.congr (congrArg Ledger.lanes h) (congrArg Ledger.job h)⟩

theorem State.KeepsFit.askFlag (h : s.KeepsFit t) (f : Flag) : s.KeepsFit (t.askFlag f) :=
  h.trans (keepsFit_of_ledger rfl)

theorem State.KeepsFit.askFault (h : s.KeepsFit t) (x : FaultSender) (r : FaultRequest) : s.KeepsFit (t.askFault x r) :=
  h.trans (keepsFit_of_ledger rfl)

theorem keepsFit_ite {p : Prop} [Decidable p] (ht : p → s.KeepsFit t) (hu : ¬p → s.KeepsFit u) :
    s.KeepsFit (if p then t else u) := by
  split
  · exact ht ‹_›
  · exact hu ‹_›

/-- A lane's share is replaced by one with no more intake entries. -/
theorem State.LanesFit.setLane (h : s.LanesFit) {v : LaneUnit} (hle : v.intake.length ≤ (s.lane l).intake.length)
    (haborts : v.abortsOutstanding ≤ 1) (hawaited : v.state ≠ .draining → v.abortsOutstanding = 0) :
    (s.setLane l v).LanesFit := by
  refine ⟨fun k => ?_, fun k hk => ?_⟩
  · rw [State.lane_setLane]
    split
    · exact ⟨hle.trans (h.unit l).intake, haborts, hawaited⟩
    · exact h.unit k
  · have hroom := h.fetching k hk
    rw [State.lane_setLane]
    split
    · rename_i hkl
      exact hle.trans_lt (hkl ▸ hroom)
    · exact hroom

/-- The flight note of the lane stays, too. -/
theorem keepsFit_setLane {v : LaneUnit} (hnote : v.flight = (s.lane l).flight)
    (hle : v.intake.length ≤ (s.lane l).intake.length) (haborts : (s.lane l).Fits → v.abortsOutstanding ≤ 1)
    (hawaited : (s.lane l).Fits → v.state ≠ .draining → v.abortsOutstanding = 0) : s.KeepsFit (s.setLane l v) := by
  refine ⟨?_, fun h => h.setLane hle (haborts (h.unit l)) (hawaited (h.unit l))⟩
  have hnotes : (fun k => ((s.setLane l v).lane k).flight) = fun k => (s.lane k).flight := by
    funext k
    rw [State.lane_setLane]
    split
    · rename_i hk
      rw [hnote, hk]
    · rfl
  exact congrArg (fun n => (⟨s.counters, { s.flights with notes := n }⟩ : Tally)) hnotes

/-- Whether a bus read of the poll is outstanding (05 R98, R99). -/
def PollPhase.fetches : PollPhase → Bool
  | .linkRead | .headerRead _ => true
  | .recordRead | .acting | .ended => false

theorem fetching_iff : s.fetching = some l ↔ ∃ j, s.lanes.job = some j ∧ j.lane = l ∧ j.phase.fetches = true := by
  unfold State.fetching
  cases s.lanes.job with
  | none => simp
  | some j => cases hp : j.phase <;> simp [PollPhase.fetches, hp]

/-- The poll asks for a set of the chain when the lane has room for it. -/
theorem keepsFit_setPhase {p : PollPhase}
    (hroom : p.fetches = true → ∀ j, s.lanes.job = some j → (s.lane j.lane).intake.length < 2) :
    s.KeepsFit (s.setPhase p) := by
  refine ⟨rfl, fun h => ⟨h.unit, fun k hk => ?_⟩⟩
  obtain ⟨j, hj, rfl, hp⟩ := fetching_iff.1 hk
  obtain ⟨j', hj', rfl⟩ := Option.map_eq_some_iff.1 hj
  exact hroom hp j' hj'

theorem keepsFit_setPhase_idle {p : PollPhase} (hp : p.fetches = false) : s.KeepsFit (s.setPhase p) :=
  keepsFit_setPhase fun h => absurd (hp.symm.trans h) Bool.false_ne_true

theorem keepsFit_endPollOf (l : Lane) : s.KeepsFit (s.endPollOf l) := by
  unfold State.endPollOf
  split
  · exact keepsFit_ite (fun _ => keepsFit_setPhase_idle rfl) fun _ => .refl s
  · exact .refl s

theorem length_markOrdinary (m : EntryMark) (es : List IntakeEntry) : (markOrdinary m es).length = es.length :=
  List.length_map _

/-- 05 R108: a lane that is not DRAINING has no abort outstanding, so draining it asks for the only one. -/
theorem keepsFit_beginDraining (hstate : (s.lane l).state ≠ .draining) (target : DrainTarget) :
    s.KeepsFit (s.beginDraining l target) := by
  refine State.KeepsFit.trans (t := s.setLane l _) ?_ (keepsFit_of_ledger rfl)
  refine keepsFit_setLane rfl (length_markOrdinary _ _).le (fun h => ?_) fun _ h => absurd rfl h
  exact Nat.succ_le_succ (h.awaited hstate).le

theorem keepsFit_haltLane (l : Lane) (c : FaultCode) (a : Word) (n : Half) : s.KeepsFit (s.haltLane l c a n) := by
  have hasked := ((State.KeepsFit.refl s).askFault .laneService (haltRequest l c a n)).askFlag .lane
  unfold State.haltLane
  split
  · rename_i hrun
    dsimp only
    refine hasked.trans (State.KeepsFit.trans ?_ ((keepsFit_beginDraining ?_ _).trans (keepsFit_endPollOf l)))
    · exact keepsFit_setLane rfl le_rfl LaneUnit.Fits.aborts LaneUnit.Fits.awaited
    · rw [State.lane_setLane_same]
      show (s.lane l).state ≠ .draining
      rw [hrun]
      decide
  · exact hasked.trans (keepsFit_setLane rfl le_rfl LaneUnit.Fits.aborts LaneUnit.Fits.awaited)
  all_goals exact .refl s

theorem keepsFit_followLink (hroom : ∀ j, s.lanes.job = some j → (s.lane j.lane).intake.length < 2) (link : Word) :
    s.KeepsFit (s.followLink l link) :=
  keepsFit_ite (fun _ => keepsFit_setPhase_idle rfl) fun _ =>
    keepsFit_ite (fun _ => keepsFit_setPhase fun _ => hroom) fun _ => keepsFit_haltLane _ _ _ _

/-- 05 R98: the poll asks for a link or a header when the lane has room. -/
theorem keepsFit_poll (link : Word) : s.KeepsFit (s.poll l link) := by
  refine keepsFit_ite (fun hacting => ?_) fun _ => .refl s
  obtain ⟨j, hj, hl, -⟩ := pollActing_iff.1 hacting
  have hroom : (s.lane l).intake.length < 2 → ∀ k, s.lanes.job = some k → (s.lane k.lane).intake.length < 2 := by
    intro h k hk
    cases hj.symm.trans hk
    exact hl ▸ h
  refine keepsFit_ite (fun _ => keepsFit_setPhase_idle rfl) fun _ => keepsFit_ite (fun hrecord => ?_) fun _ =>
    keepsFit_ite (fun ⟨_, hlt⟩ => keepsFit_setPhase fun _ => hroom hlt) fun _ => keepsFit_setPhase_idle rfl
  unfold State.pollsRecord at hrecord
  simp only [Bool.and_eq_true, decide_eq_true_eq] at hrecord
  obtain ⟨⟨-, hlt⟩, -⟩ := hrecord
  exact keepsFit_followLink (hroom hlt) link

theorem keepsFit_notifyIf (asked : Bool) : s.KeepsFit (s.notifyIf asked) :=
  keepsFit_ite (fun _ => keepsFit_of_ledger rfl) fun _ => .refl s

theorem keepsFit_nextSetup (l : Lane) : s.KeepsFit (s.nextSetup l) := by
  unfold State.nextSetup
  split <;> exact keepsFit_of_ledger rfl

/-! ## The agenda -/

theorem setAgenda_tally (s : State) (ts : List LaneTask) :
    (s.setAgenda ts).tally = ⟨s.tally.counters, { s.tally.flights with steps := ts.filter LaneTask.endsFlight }⟩ := rfl

theorem endTasks_keep_flights (s : State) (l : Lane) : (s.endTasks l).filter LaneTask.endsFlight = [] := by
  unfold State.endTasks
  split <;> rfl

theorem haltTasks_keep_flights (s : State) (ending : Bool) (l : Lane) (c : FaultCode) (a : Word) (n : Half) :
    (s.haltTasks ending l c a n).filter LaneTask.endsFlight = [] := by
  unfold State.haltTasks
  split
  · rw [List.filter_append]
    split
    · rfl
    · rw [endTasks_keep_flights]
      rfl
  · rfl

theorem followTasks_keep_flights (s : State) (l : Lane) (link : Word) :
    (s.followTasks l link).filter LaneTask.endsFlight = [] := by
  unfold State.followTasks
  split
  · rfl
  · exact haltTasks_keep_flights s _ _ _ _ _

theorem pollTasks_keep_flights (s : State) (l : Lane) (link : Word) :
    (s.pollTasks l link).filter LaneTask.endsFlight = [] := by
  unfold State.pollTasks
  split
  · exact followTasks_keep_flights s _ _
  · rfl

/-- What a step adds to the agenda never ends a flight. -/
theorem follows_keep_flights (s : State) (t : LaneTask) : (s.follows t).filter LaneTask.endsFlight = [] := by
  cases t with
  | endEntries l => exact endTasks_keep_flights s l
  | outcomeHalt l a n => exact haltTasks_keep_flights s _ _ _ _ _
  | startPoll l link => exact pollTasks_keep_flights s _ _
  | continuePoll l => exact pollTasks_keep_flights s _ _
  | _ => rfl

theorem keepsFit_perform {t : LaneTask} (ht : t.endsFlight = false) : s.KeepsFit (s.perform t) := by
  cases t with
  | notifyEntry l => exact keepsFit_notifyIf _
  | removeEntry l =>
    refine keepsFit_setLane rfl ?_ LaneUnit.Fits.aborts LaneUnit.Fits.awaited
    rw [List.length_drop]
    exact Nat.sub_le _ _
  | notifyFlight l => exact keepsFit_notifyIf _
  | outcomeHalt l a n => exact keepsFit_haltLane _ _ _ _
  | reportEligible l => exact keepsFit_ite (fun _ => keepsFit_of_ledger rfl) fun _ => .refl s
  | startPoll l link => exact keepsFit_poll _
  | continuePoll l => exact keepsFit_poll _
  | nextSetup l => exact keepsFit_nextSetup l
  | clearFlight _ | reportTaken => cases ht
  | _ => exact .refl s

/-- Replacing the agenda by one with the same flights to end. -/
theorem State.Orderly.setAgenda (hs : s.Orderly) (hk : s.KeepsFit t) {ts : List LaneTask}
    (hts : ts.filter LaneTask.endsFlight = s.lanes.agenda.filter LaneTask.endsFlight) : (t.setAgenda ts).Orderly := by
  refine hs.of_tally ?_ ((hk.lanes hs.lanes).congr rfl rfl)
  rw [setAgenda_tally, hk.tally, hts]
  rfl

/-- 05 R105: the flight note of a set that has ended is cleared. -/
theorem orderly_clearFlight {rest : List LaneTask} (h : (s.setAgenda (.clearFlight l :: rest)).Orderly) :
    ((s.setLane l { s.lane l with flight := none }).setAgenda rest).Orderly := by
  have hfit : s.LanesFit := h.lanes.congr rfl rfl
  have hlanes := hfit.setLane (v := { s.lane l with flight := none }) le_rfl (hfit.unit l).aborts (hfit.unit l).awaited
  refine ⟨hlanes.congr rfl rfl, h.counters, h.flights.noteCleared (l := l) rfl fun k hk => ?_⟩
  show ((s.setLane l { s.lane l with flight := none }).lane k).flight = (s.lane k).flight
  rw [State.lane_setLane, if_neg hk]

/-- 04 R89: the head entry of the ready queue leaves. -/
theorem orderly_reportTaken {rest : List LaneTask} (h : (s.setAgenda (.reportTaken :: rest)).Orderly) :
    (s.entryLeaves.setAgenda rest).Orderly := by
  have hreported : (s.entryLeaves.setAgenda rest).flights.reported = false := by
    show (s.entryLeaves.commit.outcomeWork == .reported) = false
    rw [entryLeaves_eq]
    dsimp only
    split <;> rfl
  have hflights : (s.entryLeaves.setAgenda rest).flights =
      { (s.setAgenda (.reportTaken :: rest)).flights with
        ready := (s.setAgenda (.reportTaken :: rest)).flights.ready.tail
        reported := false
        steps := rest.filter LaneTask.endsFlight } := by
    rw [← hreported]
    simp only [State.flights, entryLeaves_eq, State.setAgenda, List.map_tail]
    rfl
  exact h.of_parts rfl rfl h.counters (hflights ▸ h.flights.headLeft rfl)

/-- A step of the agenda that is no bus write. -/
theorem orderly_perform {t : LaneTask} {rest : List LaneTask} (h : (s.setAgenda (t :: rest)).Orderly) :
    ((s.perform t).setAgenda (s.follows t ++ rest)).Orderly := by
  cases ht : t.endsFlight with
  | false =>
    refine h.of_tally ?_ (((keepsFit_perform (s := s) ht).lanes (h.lanes.congr rfl rfl)).congr rfl rfl)
    rw [setAgenda_tally, setAgenda_tally, (keepsFit_perform ht).tally, List.filter_append, follows_keep_flights,
      List.nil_append, List.filter_cons_of_neg (by rw [ht]; decide)]
  | true =>
    cases t with
    | clearFlight l => exact orderly_clearFlight h
    | reportTaken => exact orderly_reportTaken h
    | _ => cases ht

/-- 05 R112. -/
theorem keepsFit_stopAll (hagenda : s.lanes.agenda = []) : s.KeepsFit s.stopAll := by
  have hlane : ∀ l, s.stopAll.lane l = (s.lane l).stop := fun l => PerLane.get_ofFn (fun l => (s.lane l).stop) l
  have hlength : ∀ l, (s.stopAll.lane l).intake.length = (s.lane l).intake.length := fun l => by
    rw [hlane]
    exact length_markOrdinary _ _
  refine ⟨?_, fun h => ⟨fun l => ?_, fun l hl => ?_⟩⟩
  · have hnotes : (fun l => (s.stopAll.lane l).flight) = fun l => (s.lane l).flight := by
      funext l
      rw [hlane]
      rfl
    have hsteps : s.stopAll.lanes.agenda.filter LaneTask.endsFlight = s.lanes.agenda.filter LaneTask.endsFlight := by
      rw [hagenda]
      refine (List.filter_flatMap ..).trans ?_
      refine List.flatMap_eq_nil_iff.2 fun l _ => endTasks_keep_flights _ l
    exact congrArg₂ (fun n ts => (⟨s.counters, { s.flights with notes := n, steps := ts }⟩ : Tally)) hnotes hsteps
  · refine ⟨(hlength l).le.trans (h.unit l).intake, ?_, ?_⟩ <;> rw [hlane]
    · exact (h.unit l).aborts
    · exact (h.unit l).awaited
  · exact (hlength l).trans_lt (h.fetching l hl)

theorem keepsFit_endJob (j : BoundaryJob) : s.KeepsFit (s.endJob j) := ⟨rfl, fun h => ⟨h.unit, nofun⟩⟩

theorem keepsFit_settle (hagenda : s.lanes.agenda = []) : s.KeepsFit s.settle := by
  unfold State.settle
  split
  · refine keepsFit_ite (fun _ => keepsFit_ite (fun _ => ?_) fun _ => ?_) fun _ => .refl s
    · exact (keepsFit_endJob _).trans (keepsFit_stopAll hagenda)
    · split
      · exact ⟨rfl, fun h => ⟨h.unit, nofun⟩⟩
      · exact keepsFit_endJob _
  · exact .refl s

/-- Working through an agenda keeps in order what stands in order with it. -/
theorem orderly_work (ts : List LaneTask) (s : State) (h : (s.setAgenda ts).Orderly) : (State.work ts s).Orderly := by
  induction ts generalizing s with
  | nil =>
    have hk := keepsFit_settle (s := s.setAgenda []) rfl
    exact h.of_tally hk.tally (hk.lanes h.lanes)
  | cons t rest ih =>
    cases hw : t.isWrite with
    | true => rwa [work_write s rest hw]
    | false =>
      have hnext := orderly_perform h
      by_cases hf : s.follows t = []
      · rw [work_perform s rest hw hf]
        rw [hf] at hnext
        exact ih _ hnext
      · rwa [work_follows s rest hw hf]

/-- The work that an event leaves to do, on a state whose lanes' own shares may have changed. -/
theorem State.Orderly.work (hs : s.Orderly) (hk : s.KeepsFit t) {ts : List LaneTask}
    (hts : ts.filter LaneTask.endsFlight = s.lanes.agenda.filter LaneTask.endsFlight) : (State.work ts t).Orderly :=
  orderly_work ts t (hs.setAgenda hk hts)

end

/-! ## The Lane Service's commands -/

/-- The command answers with a state that is in order if `s` is. -/
def State.OrderlyBy (s : State) (r : Result) : Prop := s.Orderly → ∃ t, r = .next t ∧ t.Orderly

section

variable {s : State}

theorem orderlyBy {t : State} (h : s.Orderly → t.Orderly) : s.OrderlyBy (.next t) := fun hs => ⟨t, rfl, h hs⟩

theorem orderlyBy_ledger {t : State} (h : t.ledger = s.ledger) : s.OrderlyBy (.next t) :=
  orderlyBy fun hs => hs.of_ledger h

theorem busWrite_keeps_flights {t : LaneTask} {w : Word × List Byte} (h : t.busWrite s = some w) :
    t.endsFlight = false := by
  cases t with
  | clearFlight _ | reportTaken => cases h
  | _ => rfl

theorem orderlyBy_execLaneRecordWrite (bus : BusEvent) : s.OrderlyBy (execLaneRecordWrite bus s) := by
  refine orderlyBy fun hs => ?_
  split
  · exact hs
  · rename_i t rest hagenda
    split
    · exact hs
    · rename_i a bs hw
      have hrest : rest.filter LaneTask.endsFlight = s.lanes.agenda.filter LaneTask.endsFlight := by
        rw [hagenda, List.filter_cons_of_neg (by rw [busWrite_keeps_flights hw]; decide)]
      have hwrite : s.KeepsFit (s.busWrite bus a bs) := keepsFit_of_ledger rfl
      dsimp only
      split
      · exact hs.work hwrite hrest
      · refine hs.work (hwrite.trans (keepsFit_haltLane _ _ _ _)) ?_
        rw [List.filter_append, haltTasks_keep_flights, hrest, List.nil_append]

theorem orderlyBy_execLaneSetup (bus : BusEvent) : s.OrderlyBy (execLaneSetup bus s) := by
  refine orderlyBy fun hs => ?_
  split
  · rename_i l _ hagenda
    have hread : s.KeepsFit (s.busRead bus) := keepsFit_of_ledger rfl
    dsimp only
    split
    · refine hs.work (hread.trans ?_) (by rw [hagenda]; rfl)
      exact keepsFit_setLane rfl le_rfl (fun _ => Nat.zero_le 1) fun _ _ => rfl
    · refine hs.work (.askFlag (.askFault (hread.trans ?_) _ _) _) (by rw [hagenda]; rfl)
      exact keepsFit_setLane rfl le_rfl (fun _ => Nat.zero_le 1) fun _ _ => rfl
  · exact hs

theorem orderlyBy_execLaneBoundary : s.OrderlyBy (execLaneBoundary s) := by
  refine orderlyBy fun hs => ?_
  split
  · dsimp only
    split
    · exact hs.of_tally rfl ⟨hs.lanes.unit, nofun⟩
    · exact hs.of_ledger rfl
  · exact hs

/-- 05 R97, R108, R109: acting on a request changes the lane's own share alone. -/
theorem keepsFit_actOnRequest (l : Lane) (r : LaneRecord) : s.KeepsFit (s.actOnRequest l r).1 := by
  have hdrain : (s.lane l).state = .running → ∀ target,
      s.KeepsFit ((s.setLane l { s.lane l with ackOwed := true }).beginDraining l target) := by
    intro hrun target
    refine State.KeepsFit.trans ?_ (keepsFit_beginDraining ?_ target)
    · exact keepsFit_setLane rfl le_rfl LaneUnit.Fits.aborts LaneUnit.Fits.awaited
    · rw [State.lane_setLane_same]
      show (s.lane l).state ≠ .draining
      rw [hrun]
      decide
  unfold State.actOnRequest
  dsimp only
  split
  case h_3 hhalted _ =>
    refine keepsFit_setLane rfl le_rfl LaneUnit.Fits.aborts fun h _ => h.awaited ?_
    rw [hhalted]
    decide
  case h_4 hrun _ => exact hdrain hrun _
  case h_5 hrun _ => exact hdrain hrun _
  all_goals exact .refl s

theorem actOnRequest_keeps_flights (s : State) (l : Lane) (r : LaneRecord) :
    (s.actOnRequest l r).2.filter LaneTask.endsFlight = [] := by
  unfold State.actOnRequest
  dsimp only
  split
  case h_4 => rw [List.filter_append, endTasks_keep_flights]; rfl
  case h_5 => rw [List.filter_append, endTasks_keep_flights]; rfl
  all_goals rfl

theorem keepsFit_takeTicket (l : Lane) (ticket : Byte) : s.KeepsFit (s.takeTicket l ticket) := by
  have hlane : s.KeepsFit (s.setLane l { s.lane l with lastTicket := some ticket }) :=
    keepsFit_setLane rfl le_rfl LaneUnit.Fits.aborts LaneUnit.Fits.awaited
  refine hlane.trans ⟨rfl, fun h => ⟨h.unit, fun k hk => ?_⟩⟩
  obtain ⟨j, hj, hl, hp⟩ := fetching_iff.1 hk
  obtain ⟨j', hj', rfl⟩ := Option.map_eq_some_iff.1 hj
  exact h.fetching k (fetching_iff.2 ⟨j', hj', hl, hp⟩)

theorem orderly_requestStep {t : State} (hs : s.Orderly) (hagenda : s.lanes.agenda = []) (hk : s.KeepsFit t) (l : Lane)
    (r : LaneRecord) : (t.requestStep l r).Orderly := by
  unfold State.requestStep
  split
  · exact hs.work hk (by rw [hagenda]; rfl)
  · refine hs.work ((hk.trans (keepsFit_takeTicket l r.ticket)).trans (keepsFit_actOnRequest l r)) ?_
    rw [actOnRequest_keeps_flights, hagenda]
    rfl

theorem orderlyBy_execLaneRequestRead (bus : BusEvent) : s.OrderlyBy (execLaneRequestRead bus s) := by
  refine orderlyBy fun hs => ?_
  split
  · rename_i j _ hagenda
    have hread : s.KeepsFit (s.busRead bus) := keepsFit_of_ledger rfl
    have hended : s.KeepsFit ((s.busRead bus).setPhase .ended) := hread.trans (keepsFit_setPhase_idle rfl)
    split
    · dsimp only
      split
      · exact hs.work hended (by rw [hagenda])
      · split
        · exact orderly_requestStep hs hagenda (hread.trans (keepsFit_setPhase_idle rfl)) _ _
        · refine hs.work (keepsFit_ite (fun _ => hended.trans (keepsFit_haltLane _ _ _ _)) fun _ => hended) ?_
          rw [haltTasks_keep_flights, hagenda]
          rfl
    · exact hs
  · exact hs

theorem orderlyBy_execNextLinkRead (bus : BusEvent) : s.OrderlyBy (execNextLinkRead bus s) := by
  refine orderlyBy fun hs => ?_
  split
  · rename_i j hj hagenda
    have hread : s.KeepsFit (s.busRead bus) := keepsFit_of_ledger rfl
    split
    · rename_i hphase
      dsimp only
      split
      · split
        · exact hs.work (hread.trans (keepsFit_setPhase_idle rfl)) (by rw [hagenda])
        · refine hs.work (hread.trans (keepsFit_followLink (fun j' hj' => ?_) _)) ?_
          · cases hj.symm.trans hj'
            exact hs.lanes.fetching j.lane (fetching_iff.2 ⟨j, hj, rfl, by rw [hphase]; rfl⟩)
          · rw [followTasks_keep_flights, hagenda]
            rfl
      · refine hs.work (hread.trans (keepsFit_haltLane _ _ _ _)) ?_
        rw [haltTasks_keep_flights, hagenda]
        rfl
    · exact hs
  · exact hs

/-- 05 R101: the set fetched finds the room that its fetch was begun with. -/
theorem keepsFit_fetch {j : BoundaryJob} (hroom : (s.lane j.lane).intake.length < 2) (h : HeaderCopy) (frame : Word) :
    s.KeepsFit (s.fetch j h frame) := by
  have hlane : ∀ k, (s.fetch j h frame).lane k =
      if k = j.lane then
        { s.lane j.lane with
          intake := (s.lane j.lane).intake ++
            [{ header := h, commitFrame := frame, mark := fetchMark h j.lane j.stopNoted }]
          anchor := some h.address
          expected := some (h.serial + 1) }
      else s.lane k := fun k => State.lane_setLane s j.lane k _
  refine ⟨?_, fun hfit => ⟨fun k => ?_, fun k hk => ?_⟩⟩
  · have hnotes : (fun k => ((s.fetch j h frame).lane k).flight) = fun k => (s.lane k).flight := by
      funext k
      rw [hlane k]
      split
      · rename_i hk
        rw [hk]
      · rfl
    exact congrArg (fun n => (⟨s.counters, { s.flights with notes := n }⟩ : Tally)) hnotes
  · rw [hlane k]
    split
    · refine ⟨?_, (hfit.unit j.lane).aborts, (hfit.unit j.lane).awaited⟩
      rw [List.length_append]
      exact Nat.succ_le_of_lt hroom
    · exact hfit.unit k
  · obtain ⟨j', hj', -, hp⟩ := fetching_iff.1 hk
    cases hj'
    dsimp only at hp
    split at hp <;> cases hp

theorem fetchTasks_keep_flights (l : Lane) (wasEmpty : Bool) (mark : EntryMark) :
    (fetchTasks l wasEmpty mark).filter LaneTask.endsFlight = [] := by
  unfold fetchTasks
  split <;> rfl

theorem orderlyBy_execHeaderRead (bus : BusEvent) : s.OrderlyBy (execHeaderRead bus s) := by
  refine orderlyBy fun hs => ?_
  split
  · rename_i j hj hagenda
    have hread : s.KeepsFit (s.busRead bus) := keepsFit_of_ledger rfl
    have hhalt : ∀ (c : FaultCode) (a : Word) (n : Half),
        (State.work ((s.busRead bus).haltTasks false j.lane c a n)
          ((s.busRead bus).haltLane j.lane c a n)).Orderly := by
      intro c a n
      refine hs.work (hread.trans (keepsFit_haltLane _ _ _ _)) ?_
      rw [haltTasks_keep_flights, hagenda]
      rfl
    split
    · rename_i link hphase
      dsimp only
      split
      · exact hhalt _ _ _
      · split
        · refine hs.work (hread.trans (keepsFit_fetch ?_ _ _)) ?_
          · exact hs.lanes.fetching j.lane (fetching_iff.2 ⟨j, hj, rfl, by rw [hphase]; rfl⟩)
          · rw [fetchTasks_keep_flights, hagenda]
            rfl
        · exact hhalt _ _ _
    all_goals exact hs
  · exact hs

theorem releaseTasks_flights (r : EndReport) (taken : List LaneTask) :
    (releaseTasks r taken).filter LaneTask.endsFlight = .clearFlight r.lane :: taken.filter LaneTask.endsFlight := by
  unfold releaseTasks
  simp only [List.filter_append]
  split <;> exact List.append_nil _

theorem orderlyBy_execEndReport (reporter : EndReporter) : s.OrderlyBy (execEndReport reporter s) := by
  refine orderlyBy fun hs => ?_
  split
  · rename_i hagenda
    have hsteps : s.flights.steps = [] := by rw [State.flights, hagenda]; rfl
    split
    · rename_i r rest hreports
      have hended : s.flights.ended = r.lane :: rest.filterMap EngineReport.endedLane := by
        rw [State.flights, hreports]
        rfl
      refine orderly_work _ _ (hs.of_parts rfl rfl hs.counters ?_)
      exact (congrArg (fun ts => Flights.Consistent { s.flights with ended := _, steps := ts })
        (releaseTasks_flights r [])).mpr (hs.flights.endTaken hsteps hended)
    · exact hs
  · rename_i hagenda
    have hsteps : s.flights.steps = [] := by rw [State.flights, hagenda]; rfl
    split
    · rename_i r hreport
      refine orderly_work _ _ (hs.of_parts rfl rfl hs.counters ?_)
      exact (congrArg (fun ts => Flights.Consistent { s.flights with report := none, steps := ts })
        (releaseTasks_flights r [.reportTaken])).mpr (hs.flights.reportReceived hsteps hreport)
    · exact hs
  · exact hs

theorem orderlyBy_execCompletionReport : s.OrderlyBy (execCompletionReport s) := by
  refine orderlyBy fun hs => ?_
  split
  · rename_i l rest hreports hagenda
    have htaken : s.KeepsFit { s with mail := { s.mail with engineReports := rest } } := by
      refine keepsFit_of_ledger ?_
      simp only [State.ledger, State.tally, State.flights, hreports]
      rfl
    dsimp only
    split
    · rename_i hlast
      obtain ⟨hnone, -⟩ := hlast
      refine hs.work (htaken.trans ?_) ?_
      · exact keepsFit_setLane rfl le_rfl (fun _ => hnone.le.trans (Nat.zero_le 1)) fun _ _ => hnone
      · rw [hagenda, drainedTasks]
        split <;> rfl
    · have hlane := htaken.trans (keepsFit_setLane (l := l)
        (v := { s.lane l with abortsOutstanding := (s.lane l).abortsOutstanding - 1 }) rfl le_rfl
        (fun h => (Nat.sub_le _ _).trans h.aborts)
        fun h hstate => Nat.sub_eq_zero_of_le ((h.awaited hstate).le.trans (Nat.zero_le 1)))
      exact hs.of_tally hlane.tally (hlane.lanes hs.lanes)
  · exact hs

theorem orderlyBy_execStopNotice : s.OrderlyBy (execStopNotice s) := by
  refine orderlyBy fun hs => ?_
  split
  · split
    · rename_i hagenda
      have hnoted : s.KeepsFit { s with mail := { s.mail with stopNotice := false } } := keepsFit_of_ledger rfl
      have hk := hnoted.trans (keepsFit_stopAll hagenda)
      exact hs.of_tally hk.tally (hk.lanes hs.lanes)
    · rename_i j hj hagenda
      refine hs.of_tally rfl ⟨hs.lanes.unit, fun k hk => ?_⟩
      obtain ⟨j', hj', hl, hp⟩ := fetching_iff.1 hk
      cases hj'
      exact hs.lanes.fetching k (fetching_iff.2 ⟨j, hj, hl, hp⟩)
    · exact hs
  · exact hs

end

end Sys2Proof.Machine
end

section
/-! PROOFS. How the commands of the other units keep capacities and sets in flight, and the invariant of every step. -/

namespace Sys2Proof.Machine

section

variable {s : State}

theorem ledger_ite {x : Ledger} {a b : State} {p : Prop} [Decidable p] (ha : a.ledger = x) (hb : b.ledger = x) :
    (if p then a else b).ledger = x := by split <;> assumption

/-! ## Sets in flight outside the Lane Service -/

theorem orderlyBy_execGrant : s.OrderlyBy (execGrant s) := by
  refine orderlyBy fun hs => ?_
  split
  · rename_i l spends _ hagenda _
    split
    · rename_i e rest hcand hintake
      obtain ⟨-, -, hnote, -⟩ := candidate_iff.1 hcand
      have hunit := hs.lanes.unit l
      have hlanes := hs.lanes.setLane
        (v := { s.lane l with intake := rest, flight := some ⟨e.header.serial, e.header.notify⟩ })
        (by rw [hintake]; exact Nat.le_succ _) hunit.aborts hunit.awaited
      refine ⟨hlanes.congr rfl rfl, hs.counters, hs.flights.granted (l := l) ?_ hnote ?_ fun k hk => ?_⟩
      · rw [State.flights, hagenda]
        rfl
      · show ((s.setLane l _).lane l).flight ≠ none
        rw [State.lane_setLane_same]
        exact nofun
      · show ((s.setLane l _).lane k).flight = (s.lane k).flight
        rw [State.lane_setLane, if_neg hk]
    · exact hs.of_ledger rfl
  · exact hs

theorem orderlyBy_execReadyAppend : s.OrderlyBy (execReadyAppend s) := by
  refine orderlyBy fun hs => ?_
  split
  · rename_i sl _ hslot
    have hlane : s.flights.slot = some sl.lane := by rw [State.flights, hslot]; rfl
    refine hs.of_parts rfl rfl hs.counters ?_
    have h := hs.flights.appended hlane
    exact (congrArg (fun r => Flights.Consistent { s.flights with slot := none, ready := r })
      (List.map_append (f := ReadyEntry.lane) (l₁ := s.commit.ready))).mpr h
  · exact hs

theorem orderlyBy_execCommittedOutcomeWrite (bus : BusEvent) : s.OrderlyBy (execCommittedOutcomeWrite bus s) := by
  refine orderlyBy fun hs => ?_
  split
  · rename_i e rest hwork hready
    refine hs.of_parts rfl rfl hs.counters (hs.flights.outcomeWritten ?_ ?_)
    · rw [State.flights, hwork]
      rfl
    · rw [State.flights, hready]
      rfl
  · exact hs

theorem filterMap_completions (n : Nat) (l : Lane) :
    (List.replicate n (EngineReport.completion l)).filterMap EngineReport.endedLane = [] :=
  List.filterMap_replicate_of_none rfl

theorem orderlyBy_execAbortOutcomeWrite (bus : BusEvent) : s.OrderlyBy (execAbortOutcomeWrite bus s) := by
  refine orderlyBy fun hs => ?_
  split
  · rename_i sl _ hslot
    have hlane : s.flights.slot = some sl.lane := by rw [State.flights, hslot]; rfl
    split
    · exact hs
    · refine hs.of_parts rfl rfl hs.counters ?_
      have hended : ∀ r : EndReport,
          (s.mail.engineReports ++ EngineReport.ended r ::
            List.replicate s.engine.completionsOwed (EngineReport.completion sl.lane)).filterMap
              EngineReport.endedLane = s.flights.ended ++ [r.lane] := fun r => by
        rw [List.filterMap_append]
        exact congrArg (fun ls => s.flights.ended ++ r.lane :: ls) (filterMap_completions _ _)
      refine (congrArg (fun rs => Flights.Consistent { s.flights with slot := none, ended := rs }) (hended _)).mpr ?_
      exact hs.flights.aborted hlane
  · exact hs

/-! ## Counters -/

theorem weightInUse_le (u : LaneUnit) : u.weightInUse ≤ 15 := by
  unfold LaneUnit.weightInUse
  split
  · omega
  · split <;> omega

/-- 06 R120, R117: a round and the start notice give each lane its weight in use. -/
theorem counters_newRound (hs : s.counters.Fit) : s.newRound.counters.Fit := by
  refine ⟨fun l => ?_, fun l => ?_, hs.idle, hs.faults⟩
  · exact (congrArg ArbiterLane.credit (PerLane.get_ofFn _ l)).trans_le (weightInUse_le _)
  · exact (congrArg ArbiterLane.wait (PerLane.get_ofFn _ l)).trans_le (hs.wait l)

theorem counters_startNotice (hs : s.counters.Fit) : s.startNotice.counters.Fit := by
  refine ⟨fun l => ?_, fun l => ?_, hs.idle, hs.faults⟩
  · exact (congrArg ArbiterLane.credit (PerLane.get_ofFn _ l)).trans_le (weightInUse_le _)
  · exact (congrArg ArbiterLane.wait (PerLane.get_ofFn _ l)).trans_le (Nat.zero_le 255)

theorem orderly_trySelect (hs : s.Orderly) : s.trySelect.Orderly := by
  unfold State.trySelect
  split
  · split
    · exact hs
    · dsimp only
      split
      · exact hs.of_parts rfl rfl (counters_newRound hs.counters) hs.flights
      · exact hs.of_ledger rfl
  · exact hs

theorem orderlyBy_execGrantRequest : s.OrderlyBy (execGrantRequest s) := by
  refine orderlyBy fun hs => ?_
  split
  · exact orderly_trySelect (hs.of_ledger rfl)
  · exact hs

theorem orderlyBy_execEligibilityReport : s.OrderlyBy (execEligibilityReport s) := by
  refine orderlyBy fun hs => ?_
  split
  · exact hs
  · exact orderly_trySelect (hs.of_ledger rfl)

theorem orderlyBy_execGrantAnswer : s.OrderlyBy (execGrantAnswer s) := by
  refine orderlyBy fun hs => ?_
  split
  · rename_i l spends _
    refine hs.of_parts rfl rfl ⟨fun k => ?_, fun k => ?_, hs.counters.idle, hs.counters.faults⟩ hs.flights
    · refine (congrArg ArbiterLane.credit (PerLane.get_set _ l k _)).trans_le ?_
      have hcredit : (s.arb l).credit ≤ 15 := hs.counters.credit l
      split
      · dsimp only
        split <;> omega
      · exact hs.counters.credit k
    · refine (congrArg ArbiterLane.wait (PerLane.get_set _ l k _)).trans_le ?_
      split
      · exact Nat.zero_le 255
      · exact hs.counters.wait k
  · exact orderly_trySelect (hs.of_ledger rfl)
  · exact hs

/-- 06 R123: a wait count stays at 255. -/
theorem age_fits {a : ArbiterLane} (hwait : a.wait ≤ 255) (candidate : Bool) (relax : Nat) :
    (a.age candidate relax).credit = a.credit ∧ (a.age candidate relax).wait ≤ 255 := by
  unfold ArbiterLane.age
  split
  · refine ⟨rfl, ?_⟩
    dsimp only
    split <;> omega
  · exact ⟨rfl, hwait⟩

theorem orderlyBy_execArbiterBoundary : s.OrderlyBy (execArbiterBoundary s) := by
  refine orderlyBy fun hs => ?_
  split
  · exact hs
  · have hage := fun l => age_fits (hs.counters.wait l) (s.candidate l) (s.lane l).relax.toNat
    refine hs.of_parts rfl rfl ⟨fun l => ?_, fun l => ?_, hs.counters.idle, hs.counters.faults⟩ hs.flights
    · exact (congrArg ArbiterLane.credit (PerLane.get_ofFn _ l)).trans_le ((hage l).1.trans_le (hs.counters.credit l))
    · exact (congrArg ArbiterLane.wait (PerLane.get_ofFn _ l)).trans_le (hage l).2

/-- 08 R149: the recorder takes requests from its queue. -/
theorem orderly_takeFault (hs : s.Orderly) : s.takeFault.Orderly := by
  unfold State.takeFault
  split
  · rename_i f rest _ hqueue
    have hfaults : rest.length ≤ 8 := by
      have h : s.recorder.queue.length ≤ 8 := hs.counters.faults
      rw [hqueue] at h
      exact Nat.le_of_succ_le h
    split
    · exact hs.of_parts rfl rfl ⟨hs.counters.credit, hs.counters.wait, hs.counters.idle, Nat.zero_le 8⟩ hs.flights
    · exact hs.of_parts rfl rfl ⟨hs.counters.credit, hs.counters.wait, hs.counters.idle, hfaults⟩ hs.flights
  · exact hs

theorem orderly_dropFault (hs : s.Orderly) : s.dropFault.Orderly := orderly_takeFault (hs.of_ledger rfl)

theorem orderly_recorderFails (hs : s.Orderly) : s.recorderFails.Orderly := orderly_dropFault (hs.of_ledger rfl)

theorem orderlyBy_execFaultRequest (sender : FaultSender) : s.OrderlyBy (execFaultRequest sender s) := by
  refine orderlyBy fun hs => ?_
  split
  · exact hs
  · dsimp only
    split
    · rename_i hroom
      refine orderly_takeFault (hs.of_parts rfl rfl ?_ hs.flights)
      refine ⟨hs.counters.credit, hs.counters.wait, hs.counters.idle, (List.length_append).trans_le ?_⟩
      exact Nat.succ_le_of_lt hroom
    · exact hs.of_ledger rfl

theorem orderlyBy_execFaultSearchRead (bus : BusEvent) : s.OrderlyBy (execFaultSearchRead bus s) := by
  refine orderlyBy fun hs => ?_
  split
  · dsimp only
    split
    · exact orderly_recorderFails (hs.of_ledger rfl)
    · split
      · exact hs.of_ledger rfl
      · split
        · exact hs.of_ledger rfl
        · exact orderly_dropFault (hs.of_ledger rfl)
  · exact hs

theorem orderlyBy_execFaultEntryWrite (bus : BusEvent) : s.OrderlyBy (execFaultEntryWrite bus s) := by
  refine orderlyBy fun hs => ?_
  split
  · dsimp only
    split
    · exact orderly_dropFault (hs.of_ledger rfl)
    · exact orderly_recorderFails (hs.of_ledger rfl)
  · exact hs

/-- 07 R127: the idle-boundary count has changed, and nothing else that the invariants read. -/
theorem State.Orderly.of_idle {t : State} (hs : s.Orderly) (hidle : t.mode.idleCount ≤ 255)
    (h : t.ledger = { s.ledger with tally := ⟨{ s.counters with idle := t.mode.idleCount }, s.flights⟩ }) :
    t.Orderly := by
  have hcounters : t.counters = { s.counters with idle := t.mode.idleCount } :=
    congrArg (Tally.counters ∘ Ledger.tally) h
  have hflights : t.flights = s.flights := congrArg (Tally.flights ∘ Ledger.tally) h
  refine hs.of_parts (congrArg Ledger.lanes h) (congrArg Ledger.job h) ?_ (hflights ▸ hs.flights)
  rw [hcounters]
  exact ⟨hs.counters.credit, hs.counters.wait, hidle, hs.counters.faults⟩

theorem orderly_returnToActive (hs : s.Orderly) : s.returnToActive.Orderly := hs.of_idle (Nat.zero_le 255) rfl

theorem orderly_takeCommand (hs : s.Orderly) (c : PartCommand) : (s.takeCommand c).Orderly := by
  cases c with
  | start => exact hs.of_ledger (ledger_ite rfl (ledger_ite rfl (ledger_ite rfl rfl)))
  | stop =>
    refine hs.of_ledger ?_
    show s.takeStop.ledger = s.ledger
    unfold State.takeStop
    split <;> rfl
  | sleep =>
    refine hs.of_ledger ?_
    show s.takeSleep.ledger = s.ledger
    unfold State.takeSleep
    split <;> rfl
  | wake =>
    show s.takeWake.Orderly
    unfold State.takeWake
    split
    case h_2 => exact (orderly_returnToActive hs).of_ledger rfl
    all_goals exact hs.of_ledger rfl

theorem orderly_takeHanded (hs : s.Orderly) (c : PartCommand) : (s.takeHanded c).Orderly := by
  unfold State.takeHanded
  split
  · exact orderly_takeCommand hs c
  · exact hs

theorem orderly_commandArrives (hs : s.Orderly) (c : PartCommand) : (s.commandArrives c).Orderly := by
  unfold State.commandArrives
  split
  · refine orderly_takeHanded ?_ c
    exact hs.of_ledger rfl
  all_goals exact hs.of_ledger rfl

theorem orderlyBy_command (c : PartCommand) (source : CmdSource) : s.OrderlyBy (.next (s.command c source)) := by
  refine orderlyBy fun hs => ?_
  cases source with
  | handedOver => exact orderly_takeHanded hs c
  | write enables =>
    show (s.commandWrite c enables).Orderly
    unfold State.commandWrite
    split
    · exact hs
    · refine orderly_commandArrives ?_ c
      exact hs.of_ledger rfl

theorem orderlyBy_execSetupComplete : s.OrderlyBy (execSetupComplete s) := by
  refine orderlyBy fun hs => ?_
  split
  · exact hs.of_parts rfl rfl (counters_startNotice hs.counters) hs.flights
  · exact hs

theorem orderlyBy_execRampUpEnd (moment : Nat) : s.OrderlyBy (execRampUpEnd moment s) := by
  refine orderlyBy fun hs => ?_
  split
  · dsimp only
    split
    · exact hs.of_ledger rfl
    · split
      · exact hs.of_ledger rfl
      · exact hs.of_idle (Nat.zero_le 255) rfl
  · exact hs

theorem idleAfter_le {count : Nat} (isQuiet : Bool) : idleAfter count isQuiet ≤ 255 := by
  unfold idleAfter
  split
  · exact Nat.min_le_right _ _
  · exact Nat.zero_le 255

theorem orderlyBy_execBoundaryEvaluation : s.OrderlyBy (execBoundaryEvaluation s) := by
  refine orderlyBy fun hs => ?_
  split
  · dsimp only
    split
    · unfold State.tryHold
      split <;> exact hs.of_idle (idleAfter_le _) rfl
    · split
      · exact hs.of_ledger rfl
      · exact orderly_returnToActive (hs.of_ledger rfl)
    all_goals exact hs.of_ledger rfl
  · exact hs

/-! ## Resets (R146) -/

theorem orderly_softReset (s : State) : s.softReset.Orderly := by
  have h := (orderly_iff State.reset).2 ⟨reset_withinCapacity, reset_flightConsistent⟩
  exact h.of_ledger rfl

theorem orderlyBy_execEnableWrite (value : Word) : s.OrderlyBy (execEnableWrite value s) := by
  refine orderlyBy fun hs => ?_
  split
  · exact hs
  · split
    · exact orderly_softReset s
    · split
      · refine orderly_commandArrives ?_ _
        exact hs.of_ledger rfl
      · exact hs.of_ledger rfl

end

/-! ## The Apply Engine's steps keep the set's lane -/

section

variable {s : State} {sl : Slot}

theorem slot_lane (hslot : s.engine.slot = some sl) : s.engine.slot.map Slot.lane = some sl.lane := by
  rw [hslot]
  rfl

theorem ledger_engine {e : ApplyEngine} (h : e.slot.map Slot.lane = s.engine.slot.map Slot.lane) :
    ({ s with engine := e } : State).ledger = s.ledger :=
  congrArg
    (fun o => (⟨s.lanes.lanes, s.lanes.job, ⟨s.counters, { s.flights with slot := o }⟩⟩ : Ledger)) h

theorem ledger_setSlot (h : s.engine.slot.map Slot.lane = some sl.lane) (k : EngineLink) :
    (s.setSlot sl k).ledger = s.ledger := ledger_engine h.symm

theorem ledger_abortSet (h : s.engine.slot.map Slot.lane = some sl.lane) (unwind : Bool) (o : SetOutcome)
    (i : Option Nat) : (s.abortSet sl unwind o i).ledger = s.ledger := ledger_engine h.symm

theorem ledger_opDone (h : s.engine.slot.map Slot.lane = some sl.lane) : (s.opDone sl).ledger = s.ledger :=
  ledger_engine h.symm

theorem ledger_beginOp (h : s.engine.slot.map Slot.lane = some sl.lane) (op : OpRecord) (k : OpKind) :
    (s.beginOp sl op k).ledger = s.ledger := by
  cases k <;> exact ledger_engine h.symm

theorem ledger_lineNamed (h : s.engine.slot.map Slot.lane = some sl.lane) (op : OpRecord) (line : Nat) :
    (s.lineNamed sl op line).ledger = s.ledger := by
  unfold State.lineNamed
  split
  · exact ledger_setSlot h _
  · exact ledger_ite (ledger_engine h.symm) (ledger_engine h.symm)
  all_goals rfl

theorem ledger_spansDone (h : s.engine.slot.map Slot.lane = some sl.lane) (op : OpRecord) :
    (s.spansDone sl op).ledger = s.ledger := by
  unfold State.spansDone
  split
  · exact ledger_ite (ledger_engine h.symm) (ledger_opDone h)
  · exact ledger_ite (ledger_engine h.symm) (ledger_opDone h)
  all_goals rfl

theorem ledger_damageMet (h : s.engine.slot.map Slot.lane = some sl.lane) (line row : Nat) (newly : Bool) :
    (s.damageMet sl line row newly).ledger = s.ledger := by
  rw [damageMet_eq]
  split <;> exact ledger_abortSet h _ _ _

theorem ledger_requestAbort (h : s.engine.slot.map Slot.lane = some sl.lane) (c : AbortCause) :
    (s.requestAbort sl c).ledger = s.ledger :=
  ledger_ite rfl (ledger_ite (ledger_abortSet h _ _ _) (ledger_engine h.symm))

theorem orderlyBy_execTrailerReadStart (bus : BusEvent) : s.OrderlyBy (execTrailerReadStart bus s) := by
  refine orderlyBy_ledger ?_
  split
  · rename_i sl _ hslot
    have h := slot_lane hslot
    dsimp only
    split
    · exact ledger_abortSet h _ _ _
    · exact ledger_abortSet h _ _ _
    · exact ledger_ite (ledger_setSlot h _) (ledger_abortSet h _ _ _)
  · rfl

theorem orderlyBy_execOpRecordRead (bus : BusEvent) : s.OrderlyBy (execOpRecordRead bus s) := by
  refine orderlyBy_ledger ?_
  split
  · rename_i sl _ hslot
    have h := slot_lane hslot
    dsimp only
    split
    · exact ledger_abortSet h _ _ _
    · exact ledger_abortSet h _ _ _
    · split
      · exact ledger_abortSet (s := s.busRead bus) (sl := { sl with op := some _ }) h _ _ _
      · exact ledger_beginOp (s := s.busRead bus) h _ _
  · rfl

theorem orderlyBy_execWriteClaimAnswer : s.OrderlyBy (execWriteClaimAnswer s) := by
  refine orderlyBy_ledger ?_
  split
  · rename_i sl _ hslot
    have h := slot_lane hslot
    split
    case h_1 => exact ledger_abortSet h _ _ _
    case h_3 => exact ledger_lineNamed h _ _
    all_goals rfl
  · rfl

theorem orderlyBy_execEngineLineReadAnswer : s.OrderlyBy (execEngineLineReadAnswer s) := by
  refine orderlyBy_ledger ?_
  split
  · rename_i sl _ hslot
    have h := slot_lane hslot
    split
    · exact ledger_damageMet h _ _ _
    · exact ledger_abortSet h _ _ _
    · rfl
  · rename_i sl _ hslot
    have h := slot_lane hslot
    split
    · exact ledger_damageMet h _ _ _
    · exact ledger_abortSet h _ _ _
    all_goals rfl
  · rfl

theorem orderlyBy_execEngineLineWriteDone : s.OrderlyBy (execEngineLineWriteDone s) := by
  refine orderlyBy_ledger ?_
  split
  · rename_i sl _ hslot
    have h := slot_lane hslot
    split
    · exact ledger_abortSet h _ _ _
    · exact ledger_lineNamed h _ _
    · rfl
  · rename_i sl _ hslot
    have h := slot_lane hslot
    split
    · exact ledger_abortSet h _ _ _
    · rfl
    · exact ledger_spansDone h _
    · rfl
  · rfl

theorem orderlyBy_execAliasClaimAnswer : s.OrderlyBy (execAliasClaimAnswer s) := by
  refine orderlyBy_ledger ?_
  split
  · rename_i sl _ hslot
    have h := slot_lane hslot
    split
    · exact ledger_damageMet h _ _ _
    · exact ledger_abortSet h _ _ _
    · exact ledger_opDone h
    · rfl
  · rfl

theorem orderlyBy_execShiftClaimAnswer : s.OrderlyBy (execShiftClaimAnswer s) := by
  refine orderlyBy_ledger ?_
  split
  · rename_i sl _ hslot
    split
    · exact ledger_abortSet (slot_lane hslot) _ _ _
    · exact ledger_opDone (slot_lane hslot)
  · rfl

theorem orderlyBy_execViewReadAnswer : s.OrderlyBy (execViewReadAnswer s) := by
  refine orderlyBy_ledger ?_
  split
  · rename_i sl _ hslot
    split
    · exact ledger_abortSet (slot_lane hslot) _ _ _
    · rfl
  · rfl

theorem orderlyBy_execSourceRowRead (bus : BusEvent) : s.OrderlyBy (execSourceRowRead bus s) := by
  refine orderlyBy_ledger ?_
  split
  · rename_i sl _ hslot
    have h := slot_lane hslot
    split
    · rfl
    · dsimp only
      split
      · exact ledger_abortSet h _ _ _
      · exact ledger_abortSet h _ _ _
      · split <;> rfl
  · rfl

theorem orderlyBy_execReadbackRowWrite (bus : BusEvent) : s.OrderlyBy (execReadbackRowWrite bus s) := by
  refine orderlyBy_ledger ?_
  split
  · rename_i sl _ hslot
    have h := slot_lane hslot
    split
    · rfl
    · dsimp only
      split
      · exact ledger_abortSet h _ _ _
      · exact ledger_ite (ledger_abortSet h _ _ _) (ledger_ite (ledger_engine h.symm) (ledger_opDone h))
  · rfl

theorem orderlyBy_execTrailerReadEnd (bus : BusEvent) : s.OrderlyBy (execTrailerReadEnd bus s) := by
  refine orderlyBy_ledger ?_
  split
  · rename_i sl _ hslot
    have h := slot_lane hslot
    dsimp only
    split
    · exact ledger_abortSet h _ _ _
    · exact ledger_abortSet h _ _ _
    · exact ledger_ite rfl (ledger_abortSet h _ _ _)
  · rfl

theorem orderlyBy_execUnwindAnswer : s.OrderlyBy (execUnwindAnswer s) := by
  refine orderlyBy_ledger ?_
  split
  · rename_i sl _ hslot
    split
    · exact ledger_engine (slot_lane hslot).symm
    · rfl
  · rfl

theorem orderlyBy_execReleaseNotice : s.OrderlyBy (execReleaseNotice s) := by
  refine orderlyBy_ledger ?_
  split
  · rfl
  · dsimp only
    split
    · rename_i sl _ hslot
      exact ledger_ite (ledger_abortSet (slot_lane hslot) _ _ _) rfl
    · rfl

theorem orderlyBy_execAbortRequestStop : s.OrderlyBy (execAbortRequestStop s) := by
  refine orderlyBy_ledger (ledger_ite ?_ rfl)
  dsimp only
  split
  · rfl
  · rename_i sl hslot
    refine ledger_requestAbort ?_ _
    exact slot_lane hslot

/-- 03 R68: a completion report ends no set. -/
theorem orderlyBy_execAbortRequestLane : s.OrderlyBy (execAbortRequestLane s) := by
  refine orderlyBy_ledger ?_
  split
  · rfl
  · rename_i l rest _
    have hended : ({ s with mail := { s.mail with
        abortLanes := rest
        engineReports := s.mail.engineReports ++ [.completion l] } } : State).ledger = s.ledger := by
      have happend : (s.mail.engineReports ++ [EngineReport.completion l]).filterMap EngineReport.endedLane =
          s.flights.ended := by
        rw [List.filterMap_append]
        exact List.append_nil _
      exact congrArg
        (fun ls => (⟨s.lanes.lanes, s.lanes.job, ⟨s.counters, { s.flights with ended := ls }⟩⟩ : Ledger)) happend
    dsimp only
    split
    · exact hended
    · rename_i sl hslot
      split
      · refine ledger_requestAbort ?_ _
        exact slot_lane hslot
      · exact hended

/-! ## The other units -/

theorem orderlyBy_execPlanRead (bus : BusEvent) : s.OrderlyBy (execPlanRead bus s) := by
  refine orderlyBy_ledger ?_
  split
  · dsimp only
    split
    · rfl
    · split <;> rfl
  · rfl

theorem ledger_faultReport : s.faultReport.ledger = s.ledger := by
  unfold State.faultReport
  split
  case h_3 => exact ledger_ite (ledger_ite rfl rfl) rfl
  all_goals rfl

theorem orderlyBy_execDamageLimitReport : s.OrderlyBy (execDamageLimitReport s) := by
  refine orderlyBy_ledger ?_
  split
  · rfl
  · exact ledger_faultReport

theorem orderlyBy_execRecorderFailureReport : s.OrderlyBy (execRecorderFailureReport s) := by
  refine orderlyBy_ledger ?_
  split
  · rfl
  · exact ledger_faultReport

theorem orderlyBy_execRowOutput (moment : Nat) : s.OrderlyBy (execRowOutput moment s) := by
  have hafter : ∀ (t : State) row, (t.afterRow row).ledger = t.ledger := fun t row =>
    ledger_ite rfl (ledger_ite rfl rfl)
  refine orderlyBy_ledger ?_
  split
  · refine ledger_ite ((hafter _ _).trans ?_) rfl
    unfold State.reportRowDamage
    split <;> rfl
  · rfl

theorem orderlyBy_execHaltScanning : s.OrderlyBy (execHaltScanning s) := by
  have hscan : ∀ t : State, t.haltScan.ledger = t.ledger := fun t => ledger_ite rfl rfl
  have htaken : ∀ t : State, t.haltTaken.ledger = t.ledger := fun t => ledger_ite rfl rfl
  refine orderlyBy_ledger ?_
  split
  · exact (htaken _).trans (hscan _)
  · rfl

/-- 04 R86, R89: the outcome writes that a publication's end begins have not been reported yet. -/
theorem ledger_completePublication : s.completePublication.ledger = s.ledger := by
  have hbegin : ∀ c : CommitUnit, (c.beginOutcome.outcomeWork == .reported) = (c.outcomeWork == .reported) ∧
      c.beginOutcome.ready = c.ready := by
    intro c
    unfold CommitUnit.beginOutcome
    split
    · rename_i hidle _
      split
      · exact ⟨by rw [hidle]; rfl, rfl⟩
      · exact ⟨rfl, rfl⟩
    · exact ⟨rfl, rfl⟩
  have hcommit : (s.completePublication.commit.outcomeWork == .reported) = (s.commit.outcomeWork == .reported) ∧
      s.completePublication.commit.ready = s.commit.ready := by
    unfold State.completePublication
    refine (hbegin _).imp (·.trans ?_) (·.trans ?_) <;> split <;> rfl
  obtain ⟨hreported, hready⟩ := hcommit
  exact congrArg₂
    (fun b r => (⟨s.lanes.lanes, s.lanes.job, ⟨s.counters, { s.flights with
      reported := b, ready := List.map ReadyEntry.lane r }⟩⟩ : Ledger)) hreported hready

theorem orderlyBy_execCommitBoundary : s.OrderlyBy (execCommitBoundary s) := by
  refine orderlyBy_ledger ?_
  split
  · exact ledger_ite (ledger_completePublication.trans rfl) rfl
  · rfl

theorem orderlyBy_execPublicationComplete : s.OrderlyBy (execPublicationComplete s) := by
  refine orderlyBy_ledger ?_
  split
  · exact ledger_completePublication
  · rfl

/-- 04 R85: publication leaves every set in its place in the queue. -/
theorem orderlyBy_execPublishClaim : s.OrderlyBy (execPublishClaim s) := by
  refine orderlyBy_ledger ?_
  split
  · rfl
  · rename_i set rest _
    have hlane : ∀ e : ReadyEntry, (ReadyEntry.publish set s.commit.frame (s.map.ownedCount set) e).lane = e.lane := by
      intro e
      unfold ReadyEntry.publish
      split <;> rfl
    have hready : (s.commit.ready.map (ReadyEntry.publish set s.commit.frame (s.map.ownedCount set))).map
        ReadyEntry.lane = s.flights.ready := by
      rw [List.map_map]
      exact List.map_congr_left fun e _ => hlane e
    exact congrArg
      (fun r => (⟨s.lanes.lanes, s.lanes.job, ⟨s.counters, { s.flights with ready := r }⟩⟩ : Ledger)) hready

theorem ledger_serveRead (n : Nat) (flaws : List (Nat × Flaw)) : (s.serveRead n flaws).ledger = s.ledger := by
  unfold State.serveRead
  split
  · exact ledger_ite rfl rfl
  all_goals rfl

theorem orderlyBy_execAliasClaim (flaws : List (Nat × Flaw)) : s.OrderlyBy (execAliasClaim flaws s) := by
  refine orderlyBy_ledger ?_
  split
  · split
    · rfl
    · dsimp only
      split <;> exact ledger_serveRead _ _
  · rfl

theorem orderlyBy_execLineRead (reader : LineReader) (flaws : List (Nat × Flaw)) :
    s.OrderlyBy (execLineRead reader flaws s) := by
  refine orderlyBy_ledger ?_
  split
  · split
    · exact ledger_serveRead _ _
    · exact ledger_serveRead _ _
    · rfl
  · split
    · exact ledger_serveRead _ _
    · rfl

/-! ## Every command -/

theorem exec_orderlyBy (c : Instr) : s.OrderlyBy (exec c s) := by
  cases c with
  | powerOnReset begun => exact orderlyBy fun _ => (orderly_softReset (s.completeBegun begun)).of_ledger rfl
  | reset begun =>
    refine orderlyBy fun hs => ?_
    split
    · exact hs
    · exact orderly_softReset _
  | resetPinAsserted begun => exact orderlyBy fun _ => (orderly_softReset (s.completeBegun begun)).of_ledger rfl
  | start _ | stop _ | sleep _ | wake _ => exact orderlyBy_command _ _
  | enableWrite value => exact orderlyBy_execEnableWrite value
  | registerWriteIgnored _ _ _ => exact orderlyBy_ledger rfl
  | exbWrite _ | stsWrite _ | flagSetRequest _ | sleepingQuiesced | stoppingEngineIdle | stoppingComplete
  | frameStart _ | commitMarkEnd _ => exact orderlyBy_ledger (ledger_ite rfl rfl)
  | rampDownEnd _ => exact orderlyBy_ledger (ledger_ite (ledger_ite (ledger_ite rfl rfl) rfl) rfl)
  | sleepStopEndingsDone => exact orderlyBy_ledger (ledger_ite (ledger_ite rfl rfl) rfl)
  | startingLineFill | pollReport | overflowClear | viewRead | liveRead | writeClaim | unwindClaim | markNotice
  | spanWrite =>
    refine orderlyBy_ledger ?_
    split <;> rfl
  | beginOrder | beginWithBlankFrame | frameCadence | heldCadence =>
    refine orderlyBy_ledger ?_
    split
    · exact ledger_ite rfl rfl
    · rfl
  | commandResult | finishOrder | shiftClaim =>
    refine orderlyBy_ledger ?_
    split
    · split <;> rfl
    · rfl
  | publicationReport =>
    refine orderlyBy_ledger ?_
    split
    · rfl
    · exact ledger_ite rfl rfl
  | wholeLineWrite writer =>
    refine orderlyBy_ledger ?_
    split <;> split <;> rfl
  | planRead bus => exact orderlyBy_execPlanRead bus
  | laneSetup bus => exact orderlyBy_execLaneSetup bus
  | setupComplete => exact orderlyBy_execSetupComplete
  | rampUpEnd moment => exact orderlyBy_execRampUpEnd moment
  | boundaryEvaluation => exact orderlyBy_execBoundaryEvaluation
  | damageLimitReport => exact orderlyBy_execDamageLimitReport
  | recorderFailureReport => exact orderlyBy_execRecorderFailureReport
  | rowOutput moment => exact orderlyBy_execRowOutput moment
  | haltScanning => exact orderlyBy_execHaltScanning
  | commitBoundary => exact orderlyBy_execCommitBoundary
  | publicationComplete => exact orderlyBy_execPublicationComplete
  | committedOutcomeWrite bus => exact orderlyBy_execCommittedOutcomeWrite bus
  | readyAppend => exact orderlyBy_execReadyAppend
  | laneBoundary => exact orderlyBy_execLaneBoundary
  | laneRequestRead bus => exact orderlyBy_execLaneRequestRead bus
  | nextLinkRead bus => exact orderlyBy_execNextLinkRead bus
  | headerRead bus => exact orderlyBy_execHeaderRead bus
  | laneRecordWrite bus => exact orderlyBy_execLaneRecordWrite bus
  | endReport reporter => exact orderlyBy_execEndReport reporter
  | completionReport => exact orderlyBy_execCompletionReport
  | stopNotice => exact orderlyBy_execStopNotice
  | eligibilityReport => exact orderlyBy_execEligibilityReport
  | grantRequest => exact orderlyBy_execGrantRequest
  | grant => exact orderlyBy_execGrant
  | grantAnswer => exact orderlyBy_execGrantAnswer
  | arbiterBoundary => exact orderlyBy_execArbiterBoundary
  | trailerReadStart bus => exact orderlyBy_execTrailerReadStart bus
  | opRecordRead bus => exact orderlyBy_execOpRecordRead bus
  | writeClaimAnswer => exact orderlyBy_execWriteClaimAnswer
  | engineLineReadAnswer => exact orderlyBy_execEngineLineReadAnswer
  | engineLineWriteDone => exact orderlyBy_execEngineLineWriteDone
  | aliasClaimAnswer => exact orderlyBy_execAliasClaimAnswer
  | shiftClaimAnswer => exact orderlyBy_execShiftClaimAnswer
  | viewReadAnswer => exact orderlyBy_execViewReadAnswer
  | sourceRowRead bus => exact orderlyBy_execSourceRowRead bus
  | readbackRowWrite bus => exact orderlyBy_execReadbackRowWrite bus
  | trailerReadEnd bus => exact orderlyBy_execTrailerReadEnd bus
  | unwindAnswer => exact orderlyBy_execUnwindAnswer
  | abortOutcomeWrite bus => exact orderlyBy_execAbortOutcomeWrite bus
  | releaseNotice => exact orderlyBy_execReleaseNotice
  | abortRequestStop => exact orderlyBy_execAbortRequestStop
  | abortRequestLane => exact orderlyBy_execAbortRequestLane
  | aliasClaim flaws => exact orderlyBy_execAliasClaim flaws
  | publishClaim => exact orderlyBy_execPublishClaim
  | lineRead reader flaws => exact orderlyBy_execLineRead reader flaws
  | faultRequest sender => exact orderlyBy_execFaultRequest sender
  | faultSearchRead bus => exact orderlyBy_execFaultSearchRead bus
  | faultEntryWrite bus => exact orderlyBy_execFaultEntryWrite bus

end

/-! ## The statement -/

/-- Settles O58: both invariants in one, read off the queue's rest, and kept by every command. -/
theorem stepKeepsWithinCapacity : Obligations.StepKeepsWithinCapacity := by
  intro s t hcap hflight e
  have hs := (orderly_iff s).2 ⟨hcap, hflight⟩
  refine (orderly_iff t).1 ?_
  unfold step at e
  split at e
  · cases e
    exact hs
  · rename_i c rest _
    obtain ⟨t', e', ht⟩ := exec_orderlyBy (s := { s with pending := rest }) c (hs.of_ledger rfl)
    cases e.symm.trans e'
    exact ht

end Sys2Proof.Machine
end

section
/-! PROOFS. The Scan Unit (Chapter 4): the orders it takes, the start of a frame, the output of its rows, the frame
boundary, and the pins of the panel port. -/

namespace Sys2Proof.Machine

/-! ## Frames and their periods (04 R73, R75, R78, R81) -/

section

variable (s : State)

/-- 04 R75, R76, R78: only a blank frame and a hidden zone need no read. -/
theorem rowNeed_eq (row : Nat) :
    s.rowNeed row =
      if s.scan.blank || s.mode.plan.any (fun p => p.hides row) then .background else .liveRead := by
  unfold State.rowNeed
  cases s.scan.blank <;> cases s.mode.plan <;> rfl

theorem period_eq {p : Plan} (h : s.mode.plan = some p) :
    s.period = p.period * 6400 ∧ s.heldPeriod = p.holdDivider * s.period ∧ 256 * s.rowTime = s.period := by
  have hperiod : s.period = p.period * 6400 := by
    rw [State.period, h]
    rfl
  have hheld : s.heldPeriod = p.holdDivider * s.period := by rw [State.heldPeriod, h]
  refine ⟨hperiod, hheld, ?_⟩
  rw [State.rowTime, hperiod]
  omega

/-- 04 R80: the first frame, blank or not, of a scan that an order begins (log 35). -/
theorem firstFrame_eq (rest : List ScanOrder) (blank : Bool) :
    ({ s.orderTaken rest with scan := { s.scan with mode := .frame, blank := blank } } : State).startFrame s.now =
      { s with
        mail := { s.mail with scanOrders := rest }
        scan := { s.scan with
          mode := .frame
          blank := blank
          frameStart := s.now
          nextDue := s.now + s.period
          row := some 0
          rowPhase :=
            if blank || s.mode.plan.any (fun p => p.hides 0) then .background else .liveRead
          output := .frameMark } } := by
  rw [State.startFrame, rowNeed_eq]
  rfl

end

/-! ## The six orders (04 R80, R81) -/

section

variable {s : State} {rest : List ScanOrder}

/-- The command in which the Scan Unit takes an order. -/
def ScanOrder.instr : ScanOrder → Instr
  | .begin => .beginOrder
  | .beginBlank => .beginWithBlankFrame
  | .frameCadence => .frameCadence
  | .heldCadence => .heldCadence
  | .finish => .finishOrder
  | .haltScanning => .haltScanning

/-- An order that is not at the head of the way is not taken (log 1). -/
theorem exec_order_waits {o : ScanOrder} (h : s.mail.scanOrders.head? ≠ some o) : exec o.instr s = .next s := by
  have hhead : ∀ rest, s.mail.scanOrders ≠ o :: rest := fun rest hrest => h (by rw [hrest]; rfl)
  cases o
  all_goals
    refine congrArg Host.Outcome.next ?_
    split
    · exact absurd ‹_› (hhead _)
    · rfl

/-- What the orders that begin scanning do: in STILL alone they start the first frame. -/
theorem exec_begin {o : ScanOrder} (ho : o = .begin ∨ o = .beginBlank) (h : s.mail.scanOrders = o :: rest) :
    exec o.instr s = .next
      (if s.scan.mode = .still then
        ({ s.orderTaken rest with
          scan := { s.scan with mode := .frame, blank := s.scan.blank || o == .beginBlank } } : State).startFrame s.now
      else s.orderTaken rest) := by
  rcases ho with rfl | rfl
  · show execBeginOrder s = _
    rw [execBeginOrder, h, show (ScanOrder.begin == .beginBlank) = false from rfl, Bool.or_false]
  · show execBeginWithBlankFrame s = _
    rw [execBeginWithBlankFrame, h, show (ScanOrder.beginBlank == .beginBlank) = true from rfl, Bool.or_true]

theorem execFrameCadence_eq (h : s.mail.scanOrders = .frameCadence :: rest) :
    exec .frameCadence s = .next
      { s with
        mail := { s.mail with scanOrders := rest }
        scan := if s.scan.mode = .held then { s.scan with mode := .frame, nextDue := s.scan.frameStart + s.period }
          else s.scan } := by
  show execFrameCadence s = _
  rw [execFrameCadence, h]
  dsimp only
  split <;> rfl

theorem execHeldCadence_eq (h : s.mail.scanOrders = .heldCadence :: rest) :
    exec .heldCadence s = .next
      { s with
        mail := { s.mail with scanOrders := rest }
        scan := if s.scan.mode = .frame then
            { s.scan with mode := .held, nextDue := s.scan.frameStart + s.heldPeriod }
          else s.scan } := by
  show execHeldCadence s = _
  rw [execHeldCadence, h]
  dsimp only
  split <;> rfl

/-- The Scan Unit once it has taken a finish order. -/
def State.finishedScan (s : State) : ScanUnit :=
  match s.scan.mode with
  | .still => s.scan
  | .frame => { s.scan with finishPending := true }
  | .held => { s.scan with finishPending := true, mode := .frame, nextDue := s.scan.frameStart + s.period }

theorem execFinishOrder_eq (h : s.mail.scanOrders = .finish :: rest) :
    exec .finishOrder s = .next { s with mail := { s.mail with scanOrders := rest }, scan := s.finishedScan } := by
  show execFinishOrder s = _
  rw [execFinishOrder, h, State.finishedScan]
  cases s.scan.mode <;> rfl

theorem haltScan_eq (s : State) :
    s.haltScan =
      { s with scan := if s.scan.mode = .still then s.scan
        else { s.scan with mode := .still, publicationAwaited := false, blank := false } } := by
  unfold State.haltScan
  split <;> rfl

theorem haltTaken_eq (s : State) :
    s.haltTaken =
      { s with mode := if s.mode.haltSent = true then
          { s.mode with haltSent := false, panel := .falling, rampEnd := s.now + 10000 * 64 }
        else s.mode } := by
  unfold State.haltTaken
  split <;> rfl

theorem execHaltScanning_eq (h : s.mail.scanOrders = .haltScanning :: rest) :
    exec .haltScanning s = .next (s.orderTaken rest).haltScan.haltTaken := by
  show execHaltScanning s = _
  rw [execHaltScanning, h]

end

/-! ## Frame starts and publication reports (04 R74, R86) -/

section

variable {s : State}

theorem execFrameStart_eq (moment : Nat) (s : State) :
    exec (.frameStart moment) s = .next
      (if s.scan.mode ≠ .still ∧ s.scan.row = none ∧ s.scan.publicationAwaited = false ∧
          s.scan.nextDue ≤ max s.now moment then
        s.startFrame (max s.now moment)
      else s) := rfl

theorem startFrame_eq (moment : Nat) :
    s.startFrame moment =
      { s with
        now := moment
        scan := { s.scan with
          frameStart := moment
          nextDue := moment + if s.scan.mode = .held then s.heldPeriod else s.period
          row := some 0
          rowPhase := if s.scan.blank || s.mode.plan.any (fun p => p.hides 0) then .background else .liveRead
          output := .frameMark } } := by
  rw [State.startFrame, rowNeed_eq]
  rfl

theorem execPublicationReport_nil (h : s.mail.scanReports = []) : exec .publicationReport s = .next s := by
  show execPublicationReport s = _
  rw [execPublicationReport, h]

theorem execPublicationReport_cons {r : PublicationReport} {rest : List PublicationReport}
    (h : s.mail.scanReports = r :: rest) :
    exec .publicationReport s = .next
      { s with
        mail := { s.mail with scanReports := rest }
        scan := { s.scan with publicationAwaited :=
          if r.frame = s.scan.frameCount then false else s.scan.publicationAwaited } } := by
  show execPublicationReport s = _
  rw [execPublicationReport, h]
  dsimp only
  split <;> rfl

end

/-- Settles O16: the orders that begin scanning in one, each of the others by the scan mode. -/
theorem scanOrdersActByScanMode : Obligations.ScanOrdersActByScanMode := by
  refine ⟨fun c o s hc => ?_, fun s p => period_eq s, fun s rest => ⟨execFrameCadence_eq, execHeldCadence_eq,
    fun h => ?_, fun h => ?_, exec_order_waits, exec_order_waits, exec_order_waits, exec_order_waits⟩⟩
  · obtain ⟨ho, rfl⟩ : (o = .begin ∨ o = .beginBlank) ∧ c = o.instr := by
      rcases hc with ⟨rfl, rfl⟩ | ⟨rfl, rfl⟩
      · exact ⟨.inl rfl, rfl⟩
      · exact ⟨.inr rfl, rfl⟩
    refine ⟨fun rest h => ?_, exec_order_waits⟩
    rw [exec_begin ho h, firstFrame_eq]
    split <;> rfl
  · rw [execFinishOrder_eq h]
    rfl
  · rw [execHaltScanning_eq h, haltTaken_eq, haltScan_eq]
    rfl

/-- Settles O17: a frame starts with the need of row 0 and the cadence of the scan mode. -/
theorem frameStartsWhenDueAndPublished : Obligations.FrameStartsWhenDueAndPublished := by
  intro moment s
  refine ⟨?_, fun r rest => execPublicationReport_cons, execPublicationReport_nil⟩
  rw [execFrameStart_eq, startFrame_eq]

/-! ## The values of a row (04 R75 to R77) -/

section

variable {s : State}

theorem rowValues_none (h : s.scan.rowPhase = .noRow ∨ s.scan.rowPhase = .liveRead ∨
    ∃ line, s.scan.rowPhase = .lineRead line) : s.rowValues = none := by
  unfold State.rowValues
  rcases h with h | h | ⟨line, h⟩ <;> rw [h]

/-- The row shows the background, the values read, or the fault colour. -/
theorem rowValues_some {vs : List Half}
    (h : s.scan.rowPhase = .background ∧ vs = List.replicate 320 s.background ∨
      (∃ line, s.scan.rowPhase = .answered line (.values vs)) ∨
      (∃ line newly, s.scan.rowPhase = .answered line (.damaged newly)) ∧ vs = List.replicate 320 s.faultColour) :
    s.rowValues = some vs := by
  unfold State.rowValues
  rcases h with ⟨h, rfl⟩ | ⟨line, h⟩ | ⟨⟨line, newly, h⟩, rfl⟩
  · rw [h]
    rfl
  · rw [h]
  · rw [h]
    rfl

/-- 04 R77: the fault requests that the end of a row makes: one for a line newly damaged. -/
def RowPhase.damageRequests (row : Nat) (frame : Word) : RowPhase → List (FaultSender × FaultRequest)
  | .answered line (.damaged true) => [(.scanUnit, scanDamageRequest line row frame)]
  | _ => []

theorem damageRequests_nil {p : RowPhase} (h : ∀ line, p ≠ .answered line (.damaged true)) (row : Nat) (frame : Word) :
    p.damageRequests row frame = [] := by
  unfold RowPhase.damageRequests
  split
  · exact absurd rfl (h _)
  · rfl

theorem reportRowDamage_requests (s : State) (row : Nat) :
    s.reportRowDamage row =
      { s with mail := { s.mail with
          faultRequests := s.mail.faultRequests ++ s.scan.rowPhase.damageRequests row s.scan.frameCount } } := by
  unfold State.reportRowDamage
  split
  · rename_i line hphase
    rw [hphase]
    rfl
  · rename_i hphase
    rw [damageRequests_nil hphase, List.append_nil]

/-! ## The output of a row -/

theorem execRowOutput_unasked {moment : Nat} (h : s.scan.row = none ∨ s.rowValues = none) :
    exec (.rowOutput moment) s = .next s := by
  refine congrArg Host.Outcome.next ?_
  split
  · rename_i hrow hvalues
    rcases h with h | h
    · cases hrow.symm.trans h
    · cases hvalues.symm.trans h
  · rfl

theorem execRowOutput_early {moment row : Nat} (hrow : s.scan.row = some row)
    (h : max s.now moment < s.scan.frameStart + (row + 1) * s.rowTime) : exec (.rowOutput moment) s = .next s := by
  refine congrArg Host.Outcome.next ?_
  rw [hrow]
  split
  · rename_i hsome _
    cases hsome
    exact if_neg (Nat.not_le.2 h)
  · rfl

/-- The state in which a row has gone out to the panel and its damage has been reported. -/
def State.rowSent (s : State) (moment row : Nat) (vs : List Half) : State :=
  { s with
    now := moment
    scan := { s.scan with output := .row row vs }
    mail := { s.mail with
      faultRequests := s.mail.faultRequests ++ s.scan.rowPhase.damageRequests row s.scan.frameCount } }

theorem execRowOutput_due {moment row : Nat} {vs : List Half} (hrow : s.scan.row = some row)
    (hdue : s.scan.frameStart + (row + 1) * s.rowTime ≤ max s.now moment) (hvalues : s.rowValues = some vs) :
    exec (.rowOutput moment) s = .next ((s.rowSent (max s.now moment) row vs).afterRow row) := by
  show execRowOutput moment s = _
  rw [execRowOutput, hrow, hvalues]
  dsimp only
  rw [if_pos hdue, reportRowDamage_requests]
  rfl

theorem afterRow_still (h : s.scan.mode = .still) (row : Nat) :
    s.afterRow row = { s with scan := { s.scan with row := none, rowPhase := .noRow } } := if_pos h

theorem afterRow_next (h : s.scan.mode ≠ .still) {row : Nat} (hrow : row < 239) :
    s.afterRow row =
      { s with scan := { s.scan with
          row := some (row + 1)
          rowPhase := if s.scan.blank || s.mode.plan.any (fun p => p.hides (row + 1)) then .background
            else .liveRead } } := by
  rw [State.afterRow, if_neg h, if_pos (Nat.succ_lt_succ hrow), rowNeed_eq]

theorem afterRow_last (h : s.scan.mode ≠ .still) : s.afterRow 239 = s.raiseBoundary := by
  rw [State.afterRow, if_neg h, if_neg (by decide)]

/-! ## The scan pins (R164, log 32) -/

theorem pins_still (h : s.scan.mode = .still) : s.frameMarkPin = false ∧ s.strobePin = false ∧ s.dataPins = [0] := by
  simp [State.frameMarkPin, State.strobePin, State.dataPins, h]

theorem frameMarkPin_iff (h : s.scan.mode ≠ .still) : s.frameMarkPin = true ↔ s.scan.output = .frameMark := by
  simp [State.frameMarkPin, h]

theorem pins_row (h : s.scan.mode ≠ .still) {row : Nat} {vs : List Half} (ho : s.scan.output = .row row vs) :
    s.strobePin = true ∧ s.dataPins = BitVec.ofNat 16 row :: vs := by
  unfold State.strobePin State.dataPins
  rw [ho]
  cases hmode : s.scan.mode with
  | still => exact absurd hmode h
  | frame | held => exact ⟨rfl, rfl⟩

theorem pins_no_row (ho : s.scan.output = .nothing ∨ s.scan.output = .frameMark) :
    s.strobePin = false ∧ s.dataPins = [0] := by
  unfold State.strobePin State.dataPins
  rcases ho with ho | ho <;> rw [ho] <;> cases s.scan.mode <;> exact ⟨rfl, rfl⟩

end

/-- Settles O18, by whether the row has its values, its time, and a scan to go on. -/
theorem rowIsOutput : Obligations.RowIsOutput := by
  intro moment row vs s
  refine ⟨fun h => execRowOutput_unasked (h.imp_right rowValues_none), execRowOutput_early,
    fun hrow hdue hvalues => ?_, pins_still, fun hmode => ⟨frameMarkPin_iff hmode, pins_row hmode, pins_no_row⟩⟩
  have hout := execRowOutput_due hrow hdue (rowValues_some hvalues)
  refine ⟨fun hmode => ?_, fun hmode hlast => ?_⟩
  · rw [hout, afterRow_still (s := s.rowSent _ row vs) hmode]
    rfl
  · rw [hout, afterRow_next (s := s.rowSent _ row vs) hmode hlast]
    rfl

/-- Settles O19: the last row of a frame that is scanned raises the boundary. -/
theorem boundaryIsRaisedAfterRow239 : Obligations.BoundaryIsRaisedAfterRow239 := by
  intro moment vs s hrow hmode hdue hvalues count faults
  refine ⟨BitVec.toNat_add _ _, ?_⟩
  rw [execRowOutput_due hrow hdue (rowValues_some hvalues), afterRow_last (s := s.rowSent _ 239 vs) hmode]
  rfl

end Sys2Proof.Machine
end

section
/-! PROOFS. The end of a publication at the Commit Unit (04 R86, R88), and the reports and the stop notice that the Lane
Service takes (05 R105, R109, R112). -/

namespace Sys2Proof.Machine

/-! ## The end of a publication (04 R86, R88, R163) -/

section

variable {s : State}

theorem execPublicationComplete_waits (h : ¬(s.commit.inProgress = true ∧ s.commit.take = [])) :
    exec .publicationComplete s = .next s := by
  refine congrArg Host.Outcome.next ?_
  split
  · rename_i hp ht
    exact absurd ⟨hp, ht⟩ h
  · rfl

/-- 04 R88. -/
theorem marksBoundary_eq (s : State) (published : Nat) :
    s.marksBoundary published =
      s.mode.plan.any fun p => p.markMode == .every || p.markMode == .commit && 0 < published := by
  unfold State.marksBoundary
  cases s.mode.plan with
  | none => rfl
  | some p =>
    dsimp only [Option.any_some]
    cases p.markMode <;> rfl

/-- 04 R89: between boundaries the outcome write of a PUBLISHED head entry begins. -/
theorem beginOutcome_eq {c : CommitUnit} (h : c.inProgress = false) :
    c.beginOutcome =
      { c with outcomeWork :=
          if c.outcomeWork = .idle ∧ (c.ready.head?.any fun e => e.condition == .published) then .writing
          else c.outcomeWork } := by
  unfold CommitUnit.beginOutcome
  split
  · rename_i e rest hidle hready
    have hbegins : (e.condition = .published ∧ (c.inProgress = false ∨ e.commitFrame ≠ c.frame)) ↔
        c.outcomeWork = .idle ∧ (c.ready.head?.any fun e => e.condition == .published) = true := by
      simp [h, hidle, hready]
    simp only [hbegins]
    split <;> rfl
  · rename_i hnot
    rw [if_neg]
    rintro ⟨hidle, hhead⟩
    cases hready : c.ready with
    | nil =>
      rw [hready] at hhead
      cases hhead
    | cons e rest => exact hnot e rest hidle hready

theorem completePublication_eq (s : State) :
    s.completePublication =
      { s with
        commit := { s.commit with
          inProgress := false
          markHigh := if s.marksBoundary s.commit.published then true else s.commit.markHigh
          markEnd := if s.marksBoundary s.commit.published then s.now + 2 * 64 else s.commit.markEnd
          outcomeWork :=
            if s.commit.outcomeWork = .idle ∧ (s.commit.ready.head?.any fun e => e.condition == .published) then
              .writing
            else s.commit.outcomeWork }
        mode := { s.mode with pubReports := s.mode.pubReports ++ [s.commit.report] }
        mail := { s.mail with
          releaseNotices := s.mail.releaseNotices ++ [s.commit.returned]
          scanReports := s.mail.scanReports ++ [s.commit.report] } } := by
  unfold State.completePublication
  dsimp only
  cases s.marksBoundary s.commit.published with
  | true => rw [if_pos rfl, beginOutcome_eq rfl]; rfl
  | false => rw [if_neg (by decide), beginOutcome_eq rfl]; rfl

end

/-- Settles O21: the publication's end field by field, with the pulse as the mark mode gives it. -/
theorem publicationIsReported : Obligations.PublicationIsReported := by
  intro moment s
  refine ⟨execPublicationComplete_waits, fun hp ht => ?_, rfl⟩
  intro report pulse
  rw [execPublicationComplete_done hp ht, completePublication_eq, marksBoundary_eq]
  rfl

/-! ## End reports, completion reports and the stop notice (05 R105, R109, R112) -/

section

variable {s : State}

theorem setAgenda_same {ts : List LaneTask} (h : s.lanes.agenda = ts) : s.setAgenda ts = s := by
  subst h
  rfl

theorem work_releaseTasks (s : State) (r : EndReport) (taken : List LaneTask) :
    State.work (releaseTasks r taken) s = s.setAgenda (releaseTasks r taken) := work_write s _ rfl

theorem execEndReport_engine {r : EndReport} {rest : List EngineReport} (ha : s.lanes.agenda = [])
    (h : s.mail.engineReports = .ended r :: rest) :
    exec (.endReport .engine) s = .next
      (({ s with mail := { s.mail with engineReports := rest } } : State).setAgenda (releaseTasks r [])) := by
  show execEndReport .engine s = _
  unfold execEndReport
  rw [ha]
  dsimp only
  rw [h]
  exact congrArg Host.Outcome.next (work_releaseTasks _ r [])

theorem execEndReport_commitUnit {r : EndReport} (ha : s.lanes.agenda = []) (h : s.mail.commitReport = some r) :
    exec (.endReport .commitUnit) s = .next
      (({ s with mail := { s.mail with commitReport := none } } : State).setAgenda
        (releaseTasks r [.reportTaken])) := by
  show execEndReport .commitUnit s = _
  unfold execEndReport
  rw [ha]
  dsimp only
  rw [h]
  exact congrArg Host.Outcome.next (work_releaseTasks _ r _)

theorem execEndReport_engine_waits
    (h : s.lanes.agenda ≠ [] ∨ ∀ r, s.mail.engineReports.head? ≠ some (.ended r)) :
    exec (.endReport .engine) s = .next s := by
  refine congrArg Host.Outcome.next ?_
  split
  · rename_i ha
    split
    · rename_i r rest hreports
      exact h.elim (absurd ha ·) fun hno => absurd (by rw [hreports]; rfl) (hno r)
    · rfl
  · rename_i hrep _
    cases hrep
  · rfl

theorem execEndReport_commitUnit_waits (h : s.lanes.agenda ≠ [] ∨ s.mail.commitReport = none) :
    exec (.endReport .commitUnit) s = .next s := by
  refine congrArg Host.Outcome.next ?_
  split
  · rename_i hrep _
    cases hrep
  · rename_i ha
    rcases h with h | h
    · exact absurd ha h
    · rw [h]
  · rfl

variable {l : Lane} {rest : List EngineReport}

/-- 05 R109: an abort has been completed, and the lane is not at the end of its draining. -/
theorem execCompletionReport_counted (ha : s.lanes.agenda = []) (h : s.mail.engineReports = .completion l :: rest)
    (hnot : (s.lane l).abortsOutstanding ≤ 1 → (s.lane l).state ≠ .draining) :
    exec .completionReport s = .next
      ((({ s with mail := { s.mail with engineReports := rest } } : State).setLane l
        { s.lane l with abortsOutstanding := (s.lane l).abortsOutstanding - 1 }).setAgenda []) := by
  show execCompletionReport s = _
  rw [execCompletionReport, h, ha]
  dsimp only
  rw [if_neg fun ⟨hnone, hdrain⟩ => hnot (Nat.sub_eq_zero_iff_le.1 hnone) hdrain, setAgenda_same]
  exact ha

/-- 05 R109: the last abort outstanding has been completed, and the draining ends. -/
theorem execCompletionReport_last (ha : s.lanes.agenda = []) (h : s.mail.engineReports = .completion l :: rest)
    (hone : (s.lane l).abortsOutstanding ≤ 1) (hdrain : (s.lane l).state = .draining) :
    exec .completionReport s = .next
      ((({ s with mail := { s.mail with engineReports := rest } } : State).setLane l
        (LaneUnit.drained { s.lane l with abortsOutstanding := 0 })).setAgenda
          (drainedTasks l (s.lane l))) := by
  have hzero : (s.lane l).abortsOutstanding - 1 = 0 := Nat.sub_eq_zero_of_le hone
  show execCompletionReport s = _
  rw [execCompletionReport, h, ha]
  dsimp only
  rw [if_pos ⟨hzero, hdrain⟩, hzero, drainedTasks, work_write _ _ rfl]
  rfl

theorem drained_eq (u : LaneUnit) :
    u.drained =
      { u with
        drainTarget := .running
        ackOwed := false
        state := if u.drainTarget = .halted then .halted else .running
        haltReason := if u.drainTarget = .halted ∧ u.haltReason = .none then .halt else u.haltReason } := by
  unfold LaneUnit.drained
  cases u.drainTarget with
  | running => rfl
  | halted => simp

theorem execCompletionReport_waits
    (h : s.lanes.agenda ≠ [] ∨ ∀ l, s.mail.engineReports.head? ≠ some (.completion l)) :
    exec .completionReport s = .next s := by
  refine congrArg Host.Outcome.next ?_
  split
  · rename_i l rest hreports ha
    exact h.elim (absurd ha ·) fun hno => absurd (by rw [hreports]; rfl) (hno l)
  · rfl

/-- 05 R112, R104: every ordinary entry is marked STOPPED, and the lanes with no set in flight end their entries, lane 0
first (log 45). -/
theorem stopAll_eq (s : State) :
    s.stopAll =
      { s with lanes := { s.lanes with
          lanes := PerLane.ofFn fun l =>
            { s.lane l with
              intake := (s.lane l).intake.map fun e => if e.mark = .ordinary then { e with mark := .stopped } else e }
          agenda := [0, 1, 2, 3].flatMap fun l : Lane =>
            if (s.lane l).flight = none ∧ (s.lane l).intake ≠ [] then
              [.writeEntryOutcome l, .writeEntryReleased l, .notifyEntry l, .removeEntry l, .endEntries l]
            else [] } } := by
  have hlane : ∀ l, ({ s with lanes := { s.lanes with lanes := .ofFn fun l => (s.lane l).stop } } : State).lane l =
      (s.lane l).stop := PerLane.get_ofFn fun l => (s.lane l).stop
  have hends : ∀ l, State.endTasks { s with lanes := { s.lanes with lanes := .ofFn fun l => (s.lane l).stop } } l =
      if (s.lane l).flight = none ∧ (s.lane l).intake ≠ [] then
        [.writeEntryOutcome l, .writeEntryReleased l, .notifyEntry l, .removeEntry l, .endEntries l]
      else [] := fun l =>
    endTasks_marked _ l (s.lane l) .stopped (by decide) (by rw [hlane]; rfl) (by rw [hlane]; rfl)
  rw [State.stopAll]
  exact congrArg (fun ts => State.setAgenda _ (allLanes.flatMap ts)) (funext hends)

theorem execStopNotice_free (hn : s.mail.stopNotice = true) (ha : s.lanes.agenda = []) (hj : s.lanes.job = none) :
    exec .stopNotice s = .next (({ s with mail := { s.mail with stopNotice := false } } : State).stopAll) := by
  show execStopNotice s = _
  rw [execStopNotice, if_pos hn, hj, ha]

theorem execStopNotice_noted (hn : s.mail.stopNotice = true) (ha : s.lanes.agenda = []) {j : BoundaryJob}
    (hj : s.lanes.job = some j) :
    exec .stopNotice s = .next
      { s with
        mail := { s.mail with stopNotice := false }
        lanes := { s.lanes with job := some { j with stopNoted := true } } } := by
  show execStopNotice s = _
  rw [execStopNotice, if_pos hn, hj, ha]

theorem execStopNotice_waits (h : s.mail.stopNotice = false ∨ s.lanes.agenda ≠ []) :
    exec .stopNotice s = .next s := by
  refine congrArg Host.Outcome.next ?_
  split
  · rename_i hn
    have ha : s.lanes.agenda ≠ [] := h.resolve_left (by rw [hn]; decide)
    split
    · exact absurd ‹_› ha
    · exact absurd ‹_› ha
    · rfl
  · rfl

end

/-- Settles O53: each message by whether it is there and the Lane Service free to take it. -/
theorem endsCompletionsAndStopsAreTaken : Obligations.EndsCompletionsAndStopsAreTaken := by
  intro s
  refine ⟨fun reporter r mail ha h => ?_, fun l rest ha h => ?_, fun hn ha hj => ?_,
    fun j hn ha hj => execStopNotice_noted hn ha hj, execStopNotice_waits, execEndReport_engine_waits,
    execEndReport_commitUnit_waits, execCompletionReport_waits⟩
  · rcases h with ⟨rfl, rest, h, rfl⟩ | ⟨rfl, h, rfl⟩
    · rw [execEndReport_engine ha h]
      rfl
    · rw [execEndReport_commitUnit ha h]
      rfl
  · intro u took
    refine ⟨fun hnot => ?_, fun hone hdrain => ?_⟩
    · rw [execCompletionReport_counted ha h hnot]
      rfl
    · rw [execCompletionReport_last ha h hone hdrain, drained_eq]
      rfl
  · rw [execStopNotice_free hn ha hj, stopAll_eq]
    rfl

end Sys2Proof.Machine
end

section
/-! PROOFS. The Lane Service at the reads of a boundary (05 R96 to R101, R110, R112): the request step and the poll it
leads to, the chain, and the halts of a lane that meets a fault in them. -/

namespace Sys2Proof.Machine

variable {s : State} {l : Lane} {j : BoundaryJob} {bus : BusEvent}

/-! ## The end of the work on a lane (05 R96, R112) -/

theorem setPhase_setPhase (s : State) (p q : PollPhase) : (s.setPhase p).setPhase q = s.setPhase q := by
  unfold State.setPhase
  rw [Option.map_map]
  rfl

theorem setPhase_job (hj : s.lanes.job = some j) (p : PollPhase) :
    (s.setPhase p).lanes.job = some { j with phase := p } := by
  rw [setPhase_of_job hj]

/-- With the work on its lane over, the boundary's work goes to the next lane, or ends. -/
def State.laneServed (s : State) (j : BoundaryJob) : State :=
  if j.stopNoted then s.stoppedAfter j
  else if j.lane = 3 then s.endJob j
  else { s with lanes := { s.lanes with job := some { j with lane := j.lane + 1, phase := .recordRead } } }

theorem work_ended (hj : s.lanes.job = some j) (ha : s.lanes.agenda = []) :
    State.work [] (s.setPhase .ended) = s.laneServed j := by
  have hended := setPhase_job hj .ended
  unfold State.laneServed
  split
  · rename_i hn
    exact (work_nil_stopped _ hended rfl hn).trans rfl
  · rename_i hn
    have hn := Bool.eq_false_iff.2 hn
    split
    · rename_i hl
      rw [work_nil_last _ hended rfl hn (by dsimp only; rw [hl]; rfl), setAgenda_same (s := s.setPhase .ended) ha]
      rfl
    · rename_i hl
      rw [work_nil_next _ hended rfl hn (nextLane_of_ne_last hl), ← ha]
      rfl

/-- A lane whose next read has been asked for waits for it. -/
theorem work_reading (ha : s.lanes.agenda = []) {p : PollPhase} (hp : p ≠ .ended) :
    State.work [] (s.setPhase p) = s.setPhase p := by
  refine (work_nil_working _ fun j hj => ?_).trans (setAgenda_same ha)
  obtain ⟨j', -, rfl⟩ := Option.map_eq_some_iff.1 hj
  exact hp

/-! ## Endings and halts (05 R104, R110) -/

/-- Endings, like the lane state after them, begin with a bus write. -/
theorem work_endTasks (s t : State) (l k : Lane) (rest : List LaneTask) :
    State.work (s.endTasks l ++ .writeState k :: rest) t = t.setAgenda (s.endTasks l ++ .writeState k :: rest) := by
  unfold State.endTasks
  split <;> exact work_write t _ rfl

theorem work_haltTasks {c : FaultCode} {a : Word} {n : Half} (hrun : (s.lane l).state = .running) (ending : Bool)
    (rest : List LaneTask) (t : State) :
    State.work (s.haltTasks ending l c a n ++ rest) t = t.setAgenda (s.haltTasks ending l c a n ++ rest) := by
  unfold State.haltTasks
  rw [if_pos hrun]
  cases ending with
  | true => exact work_write t _ rfl
  | false =>
    rw [List.append_assoc]
    exact work_endTasks _ t l l rest

/-- The state in which the poll of a RUNNING lane has met a fault halt cause. -/
def State.pollHalted (s : State) (j : BoundaryJob) (c : FaultCode) (a : Word) (n : Half) : State :=
  let u := s.lane j.lane
  { s with
    lanes := { s.lanes with
      lanes := s.lanes.lanes.set j.lane
        { u with
          haltReason := c.haltReason
          intake := markOrdinary .dropped u.intake
          abortsOutstanding := u.abortsOutstanding + 1
          drainTarget := .halted
          state := .draining }
      job := some { j with phase := .ended }
      agenda :=
        (if u.flight = none ∧ u.intake ≠ [] then
          [.writeEntryOutcome j.lane, .writeEntryReleased j.lane, .notifyEntry j.lane, .removeEntry j.lane,
           .endEntries j.lane]
        else []) ++ [.writeState j.lane] }
    mail := { s.mail with
      faultRequests := s.mail.faultRequests ++ [(.laneService, haltRequest j.lane c a n)]
      flagRequests := s.mail.flagRequests ++ [.lane]
      abortLanes := s.mail.abortLanes ++ [j.lane] } }

theorem halt_eq_pollHalted (hj : s.lanes.job = some j) (hrun : (s.lane j.lane).state = .running)
    (hp : j.phase ≠ .recordRead) (c : FaultCode) (a : Word) (n : Half) :
    (s.haltLane j.lane c a n).setAgenda (s.haltTasks false j.lane c a n) = s.pollHalted j c a n := by
  rw [haltLane_running s _ c a n hrun, haltTasks_running s _ c a n hrun, hj, Option.map_some, if_pos ⟨rfl, hp⟩]
  rfl

/-- 05 R110: a read of the poll meets a cause. -/
theorem work_halted (hj : s.lanes.job = some j) (hrun : (s.lane j.lane).state = .running)
    (hp : j.phase ≠ .recordRead) (c : FaultCode) (a : Word) (n : Half) :
    State.work (s.haltTasks false j.lane c a n) (s.haltLane j.lane c a n) = s.pollHalted j c a n := by
  rw [← List.append_nil (s.haltTasks false j.lane c a n), work_haltTasks hrun, List.append_nil,
    halt_eq_pollHalted hj hrun hp]

/-! ## The poll begins (05 R98) -/

theorem work_startPoll {link : Word} {t : State} (h : s.poll l link = t ∧ s.pollTasks l link = []) :
    State.work [.startPoll l link] s = State.work [] t :=
  (work_perform s (t := .startPoll l link) [] rfl h.2).trans (congrArg (State.work []) h.1)

/-! ## The read of the request step (05 R97) -/

section

variable (hj : s.lanes.job = some j) (ha : s.lanes.agenda = []) (hp : j.phase = .recordRead)
include hj ha hp

theorem execLaneRequestRead_draining (bus : BusEvent) (hdrain : (s.lane j.lane).state = .draining) :
    exec (.laneRequestRead bus) s = .next (State.work [] ((s.busRead bus).setPhase .ended)) := by
  show execLaneRequestRead bus s = _
  rw [execLaneRequestRead, hj, ha]
  dsimp only
  rw [if_pos hp, if_pos hdrain]

theorem execLaneRequestRead_clean (hdrain : (s.lane j.lane).state ≠ .draining) (he : bus.error = none) :
    exec (.laneRequestRead bus) s = .next
      (((s.busRead bus).setPhase .acting).requestStep j.lane
        (laneRecordOf (Memory.readBytes (Memory.hostWrites s.mem bus.host) (s.laneRecord j.lane) 32))) := by
  show execLaneRequestRead bus s = _
  rw [execLaneRequestRead, hj, ha]
  dsimp only
  rw [if_pos hp, if_neg hdrain, busData_clean s he]

/-- 05 R110: a failed read halts a lane that is RUNNING. -/
theorem execLaneRequestRead_halts (hrun : (s.lane j.lane).state = .running) (he : bus.error ≠ none) :
    exec (.laneRequestRead bus) s = .next
      ((s.busRead bus).pollHalted j .linkFault 0 (s.lane j.lane).expectedOrZero) := by
  show execLaneRequestRead bus s = _
  rw [execLaneRequestRead, hj, ha]
  dsimp only
  rw [if_pos hp, if_neg (by rw [hrun]; decide), busData_error s he]
  have hrun' : (((s.busRead bus).setPhase .ended).lane j.lane).state = .running := hrun
  have hended := setPhase_job (s := s.busRead bus) hj .ended
  dsimp only
  rw [if_pos hrun']
  exact congrArg Host.Outcome.next (work_halted hended hrun nofun _ _ _)

/-- A failed read ends the work on a lane that is not RUNNING. -/
theorem execLaneRequestRead_fails (hdrain : (s.lane j.lane).state ≠ .draining)
    (hrun : (s.lane j.lane).state ≠ .running) (he : bus.error ≠ none) :
    exec (.laneRequestRead bus) s = .next (State.work [] ((s.busRead bus).setPhase .ended)) := by
  show execLaneRequestRead bus s = _
  rw [execLaneRequestRead, hj, ha]
  dsimp only
  rw [if_pos hp, if_neg hdrain, busData_error s he]
  have hrun' : (((s.busRead bus).setPhase .ended).lane j.lane).state ≠ .running := hrun
  dsimp only
  rw [if_neg hrun', haltTasks_not_running hrun']

/-- 05 R97: a ticket taken before asks nothing new, and the poll begins. -/
theorem execLaneRequestRead_polls {bs : List Byte} (hdrain : (s.lane j.lane).state ≠ .draining) (he : bus.error = none)
    (hbs : Memory.readBytes (Memory.hostWrites s.mem bus.host) (s.laneRecord j.lane) 32 = bs)
    (hticket : (s.lane j.lane).lastTicket = some (byteAt bs 13)) :
    exec (.laneRequestRead bus) s = .next
      (State.work [.startPoll j.lane (wordAt bs 0)] ((s.busRead bus).setPhase .acting)) := by
  rw [execLaneRequestRead_clean hj ha hp hdrain he, hbs]
  exact congrArg Host.Outcome.next (if_pos hticket)

end

theorem execLaneRequestRead_waits
    (h : ∀ j, s.lanes.job = some j → j.phase = .recordRead → s.lanes.agenda ≠ []) (bus : BusEvent) :
    exec (.laneRequestRead bus) s = .next s := by
  refine congrArg Host.Outcome.next ?_
  split
  · rename_i j hj ha
    exact if_neg fun hp => h j hj hp ha
  · rfl

/-! ## The work of a boundary, lane by lane (05 R96 to R98) -/

theorem execLaneBoundary_begins {frame : Word} {rest : List Word} (hmail : s.mail.laneBoundary = frame :: rest)
    (hj : s.lanes.job = none) (ha : s.lanes.agenda = []) (hsetup : s.lanes.setup = none) :
    exec .laneBoundary s = .next
      (if s.mode.part = .active ∨ s.mode.part = .hold then
        { s with
          lanes := { s.lanes with
            job := some { lane := 0, phase := .recordRead, appended := false, ticketTaken := false,
                          stopNoted := false } }
          mail := { s.mail with laneBoundary := rest } }
      else
        { s with mail := { s.mail with
            laneBoundary := rest, pollReports := s.mail.pollReports ++ [⟨false, false⟩] } }) := by
  have hgrants : s.mode.part.grants = true ↔ s.mode.part = .active ∨ s.mode.part = .hold := by simp [PartState.grants]
  show execLaneBoundary s = _
  rw [execLaneBoundary, hmail, hj, ha, hsetup]
  exact congrArg Host.Outcome.next (if_congr hgrants rfl rfl)

theorem execLaneBoundary_waits (h : s.mail.laneBoundary = [] ∨ s.lanes.job ≠ none ∨ s.lanes.agenda ≠ [] ∨
    s.lanes.setup ≠ none) : exec .laneBoundary s = .next s := by
  refine congrArg Host.Outcome.next ?_
  split
  · rename_i hmail hj ha hsetup
    rw [hmail] at h
    simp [hj, ha, hsetup] at h
  · rfl

/-- 05 R98: a lane that is not polled, for a stop notice, its state or want of room, gives way to the next. -/
theorem work_startPoll_served {link : Word} (hj : s.lanes.job = some j) (ha : s.lanes.agenda = [])
    (h : j.stopNoted = true ∨ (s.lane j.lane).state ≠ .running ∨ 2 ≤ (s.lane j.lane).intake.length) :
    State.work [.startPoll j.lane link] (s.setPhase .acting) = s.laneServed j := by
  obtain ⟨hpoll, htasks⟩ := poll_ended (setPhase_job hj .acting) rfl rfl link h
  rw [setPhase_setPhase] at hpoll
  exact (work_startPoll ⟨hpoll, htasks⟩).trans (work_ended hj ha)

section

variable {link : Word} (hj : s.lanes.job = some j) (ha : s.lanes.agenda = []) (hn : j.stopNoted = false)
  (hrun : (s.lane j.lane).state = .running) (hroom : (s.lane j.lane).intake.length < 2)
include hj ha hn hrun hroom

theorem work_startPoll_anchored (h : (s.lane j.lane).anchor ≠ none) :
    State.work [.startPoll j.lane link] (s.setPhase .acting) = s.setPhase .linkRead := by
  obtain ⟨hpoll, htasks⟩ := poll_anchored (setPhase_job hj .acting) rfl rfl link hn hrun hroom h
  rw [setPhase_setPhase] at hpoll
  exact (work_startPoll ⟨hpoll, htasks⟩).trans (work_reading ha nofun)

variable (hrecord : (s.lane j.lane).anchor = none)
include hrecord

theorem work_startPoll_zero (h0 : link = 0) :
    State.work [.startPoll j.lane link] (s.setPhase .acting) = s.laneServed j := by
  subst h0
  obtain ⟨hpoll, htasks⟩ := poll_record (setPhase_job hj .acting) rfl rfl 0 hn hrun hroom hrecord
  obtain ⟨hfollow, hnone⟩ := follow_zero (s := s.setPhase .acting) (l := j.lane)
  have hended := hpoll.trans hfollow
  rw [setPhase_setPhase] at hended
  exact (work_startPoll ⟨hended, htasks.trans hnone⟩).trans (work_ended hj ha)

theorem work_startPoll_aligned (h0 : link ≠ 0) (h16 : link % 16 = 0) :
    State.work [.startPoll j.lane link] (s.setPhase .acting) = s.setPhase (.headerRead link) := by
  obtain ⟨hpoll, htasks⟩ := poll_record (setPhase_job hj .acting) rfl rfl link hn hrun hroom hrecord
  obtain ⟨hfollow, hnone⟩ := follow_aligned (s := s.setPhase .acting) (l := j.lane) h0 h16
  have hreads := hpoll.trans hfollow
  rw [setPhase_setPhase] at hreads
  exact (work_startPoll ⟨hreads, htasks.trans hnone⟩).trans (work_reading ha nofun)

omit ha in
/-- 05 R99: a misaligned link halts the lane. -/
theorem work_startPoll_misaligned (h16 : ¬link % 16 = 0) :
    State.work [.startPoll j.lane link] (s.setPhase .acting) =
      s.pollHalted j .chainMisaligned link (s.lane j.lane).expectedOrZero := by
  have hacting := setPhase_job hj .acting
  have hrun' : ((s.setPhase .acting).lane j.lane).state = .running := hrun
  obtain ⟨hpoll, htasks⟩ := poll_record hacting rfl rfl link hn hrun hroom hrecord
  obtain ⟨hfollow, hhalts⟩ := follow_misaligned (s := s.setPhase .acting) (l := j.lane) h16
  rw [work_halt (t := .startPoll j.lane link) hrun' rfl (htasks.trans hhalts) (hpoll.trans hfollow), List.append_nil]
  exact halt_eq_pollHalted hacting hrun' nofun _ _ _

end

theorem execPollReport_cons {r : PollReport} {rest : List PollReport} (h : s.mail.pollReports = r :: rest) :
    exec .pollReport s = .next
      { s with
        mail := { s.mail with pollReports := rest }
        mode := { s.mode with pollReports := s.mode.pollReports ++ [r] } } := by
  show execPollReport s = _
  rw [execPollReport, h]

theorem execPollReport_nil (h : s.mail.pollReports = []) : exec .pollReport s = .next s := by
  show execPollReport s = _
  rw [execPollReport, h]

/-- A lane whose record was read gives way to the next in the phase of the read. -/
theorem laneServed_recordRead (hp : j.phase = .recordRead) :
    s.laneServed j =
      if j.stopNoted then s.stoppedAfter j
      else if j.lane = 3 then s.endJob j
      else { s with lanes := { s.lanes with job := some { j with lane := j.lane + 1 } } } := by
  rw [State.laneServed, ← hp]

theorem busRead_in_phase (hj : s.lanes.job = some j) (bus : BusEvent) (p : PollPhase) :
    (s.busRead bus).setPhase p =
      { s with
        mem := Memory.hostWrites s.mem bus.host
        lanes := { s.lanes with job := some { j with phase := p } } } :=
  setPhase_of_job (s := s.busRead bus) hj p

/-- Settles O48: the reads of the request step by the lane's state, the ticket and the poll that follows. -/
theorem lanesAreServedInOrder : Obligations.LanesAreServedInOrder := by
  intro s
  refine ⟨fun rest frame hmail hj ha hsetup => execLaneBoundary_begins hmail hj ha hsetup, execLaneBoundary_waits,
    fun r rest h => execPollReport_cons h, execPollReport_nil, fun j bus hj ha hp => ?_,
    fun bus h => execLaneRequestRead_waits h bus⟩
  intro mem u bs link inPhase served
  have hserved : (s.busRead bus).laneServed j = served := laneServed_recordRead hp
  have hphase : ∀ p, (s.busRead bus).setPhase p = inPhase p := busRead_in_phase hj bus
  have hj' : (s.busRead bus).lanes.job = some j := hj
  refine ⟨fun h => ?_, fun hdrain he hticket => ?_⟩
  · rw [← hserved, ← work_ended hj' ha]
    by_cases hdrain : u.state = .draining
    · exact execLaneRequestRead_draining hj ha hp bus hdrain
    · obtain ⟨he, hrun⟩ := h.resolve_left hdrain
      exact execLaneRequestRead_fails hj ha hp hdrain hrun he
  · rw [execLaneRequestRead_polls hj ha hp hdrain he rfl hticket, ← hserved]
    refine ⟨fun h => congrArg _ (work_startPoll_served hj' ha h), fun hn hrun hroom => ⟨fun hanchor => ?_,
      fun hrecord h0 => ?_, fun hrecord h0 h16 => ?_⟩⟩
    · rw [← hphase]
      exact congrArg _ (work_startPoll_anchored hj' ha hn hrun hroom hanchor)
    · exact congrArg _ (work_startPoll_zero hj' ha hn hrun hroom hrecord h0)
    · rw [← hphase]
      exact congrArg _ (work_startPoll_aligned hj' ha hn hrun hroom hrecord h0 ((aligned_iff link).2 h16))

/-! ## The chain (05 R98 to R101) -/

section

variable (hj : s.lanes.job = some j) (ha : s.lanes.agenda = [])
include hj ha

theorem execNextLinkRead_clean {link : Word} (hp : j.phase = .linkRead) (he : bus.error = none)
    (hlink : link =
      wordAt (Memory.readBytes (Memory.hostWrites s.mem bus.host) ((s.lane j.lane).anchor.getD 0) 4) 0) :
    exec (.nextLinkRead bus) s = .next
      (if j.stopNoted then State.work [] ((s.busRead bus).setPhase .ended)
       else State.work ((s.busRead bus).followTasks j.lane link) ((s.busRead bus).followLink j.lane link)) := by
  show execNextLinkRead bus s = _
  rw [execNextLinkRead, hj, ha]
  dsimp only
  rw [if_pos hp, busData_clean s he, hlink]

theorem execNextLinkRead_halts (hp : j.phase = .linkRead) (hrun : (s.lane j.lane).state = .running)
    (he : bus.error ≠ none) :
    exec (.nextLinkRead bus) s = .next
      ((s.busRead bus).pollHalted j .linkFault ((s.lane j.lane).anchor.getD 0)
        ((s.lane j.lane).expectedOrZero - 1)) := by
  have hj' : (s.busRead bus).lanes.job = some j := hj
  show execNextLinkRead bus s = _
  rw [execNextLinkRead, hj, ha]
  dsimp only
  rw [if_pos hp, busData_error s he]
  exact congrArg Host.Outcome.next (work_halted hj' hrun (by rw [hp]; nofun) _ _ _)

theorem execNextLinkRead_waits (hp : j.phase ≠ .linkRead) : exec (.nextLinkRead bus) s = .next s := by
  show execNextLinkRead bus s = _
  rw [execNextLinkRead, hj, ha]
  exact congrArg Host.Outcome.next (if_neg hp)

/-- 05 R99, R113: a misaligned link halts the lane. -/
theorem execNextLinkRead_misaligned {link : Word} (hp : j.phase = .linkRead) (he : bus.error = none)
    (hn : j.stopNoted = false) (hrun : (s.lane j.lane).state = .running)
    (hlink : link =
      wordAt (Memory.readBytes (Memory.hostWrites s.mem bus.host) ((s.lane j.lane).anchor.getD 0) 4) 0)
    (h16 : ¬link % 16 = 0) :
    exec (.nextLinkRead bus) s = .next
      ((s.busRead bus).pollHalted j .chainMisaligned link (s.lane j.lane).expectedOrZero) := by
  have hj' : (s.busRead bus).lanes.job = some j := hj
  obtain ⟨hfollow, hhalts⟩ := follow_misaligned (s := s.busRead bus) (l := j.lane) h16
  rw [execNextLinkRead_clean hj ha hp he hlink, if_neg (by rw [hn]; decide), hfollow, hhalts]
  exact congrArg Host.Outcome.next (work_halted hj' hrun (by rw [hp]; nofun) _ _ _)

variable {link : Word} (hp : j.phase = .headerRead link)
include hp

theorem execHeaderRead_halts (hrun : (s.lane j.lane).state = .running) (he : bus.error ≠ none) :
    exec (.headerRead bus) s = .next
      ((s.busRead bus).pollHalted j .linkFault link (s.lane j.lane).expectedOrZero) := by
  have hj' : (s.busRead bus).lanes.job = some j := hj
  show execHeaderRead bus s = _
  rw [execHeaderRead, hj, ha]
  dsimp only
  rw [hp]
  dsimp only
  rw [busData_error s he]
  exact congrArg Host.Outcome.next (work_halted hj' hrun (by rw [hp]; nofun) _ _ _)

theorem execHeaderRead_clean {bs : List Byte} (he : bus.error = none)
    (hbs : Memory.readBytes (Memory.hostWrites s.mem bus.host) link 32 = bs) :
    exec (.headerRead bus) s = .next
      (if (s.lane j.lane).expected = none ∨ (s.lane j.lane).expected = some (halfAt bs 4) then
        State.work
          (fetchTasks j.lane (s.lane j.lane).intake.isEmpty (fetchMark (headerOf link bs) j.lane j.stopNoted))
          ((s.busRead bus).fetch j (headerOf link bs) (headerFrame bs))
      else
        State.work ((s.busRead bus).haltTasks false j.lane .sequence link (halfAt bs 4))
          ((s.busRead bus).haltLane j.lane .sequence link (halfAt bs 4))) := by
  show execHeaderRead bus s = _
  rw [execHeaderRead, hj, ha]
  dsimp only
  rw [hp]
  dsimp only
  rw [busData_clean s he, hbs]
  rfl

/-- 05 R100: a set with another serial than the one expected halts the lane. -/
theorem execHeaderRead_sequence {bs : List Byte} (hrun : (s.lane j.lane).state = .running) (he : bus.error = none)
    (hbs : Memory.readBytes (Memory.hostWrites s.mem bus.host) link 32 = bs)
    (hserial : ¬((s.lane j.lane).expected = none ∨ (s.lane j.lane).expected = some (halfAt bs 4))) :
    exec (.headerRead bus) s = .next ((s.busRead bus).pollHalted j .sequence link (halfAt bs 4)) := by
  have hj' : (s.busRead bus).lanes.job = some j := hj
  rw [execHeaderRead_clean hj ha hp he hbs, if_neg hserial]
  exact congrArg Host.Outcome.next (work_halted hj' hrun (by rw [hp]; nofun) _ _ _)

/-- 05 R101: a set with the serial expected is fetched. -/
theorem execHeaderRead_fetches {bs : List Byte} (he : bus.error = none)
    (hbs : Memory.readBytes (Memory.hostWrites s.mem bus.host) link 32 = bs)
    (hserial : (s.lane j.lane).expected = none ∨ (s.lane j.lane).expected = some (halfAt bs 4)) :
    exec (.headerRead bus) s = .next
      (((s.busRead bus).fetch j (headerOf link bs) (headerFrame bs)).setAgenda
        (fetchTasks j.lane (s.lane j.lane).intake.isEmpty (fetchMark (headerOf link bs) j.lane j.stopNoted))) := by
  rw [execHeaderRead_clean hj ha hp he hbs, if_pos hserial]
  exact congrArg Host.Outcome.next (work_write _ _ rfl)

end

theorem execHeaderRead_waits (hj : s.lanes.job = some j) (hp : ∀ link, j.phase ≠ .headerRead link) :
    exec (.headerRead bus) s = .next s := by
  show execHeaderRead bus s = _
  unfold execHeaderRead
  rw [hj]
  cases ha : s.lanes.agenda with
  | cons t rest => rfl
  | nil =>
    cases hphase : j.phase with
    | headerRead link => exact absurd hphase (hp link)
    | _ => simp only [hphase]

/-- 05 R101. -/
theorem malformed_iff (h : HeaderCopy) (l : Lane) :
    h.malformed l = true ↔ h.lane.toNat ≠ l.val ∨ 64 < h.opCount.toNat := by
  simp [HeaderCopy.malformed]

/-- Settles O51: the link by its value and the stop notice, the header by its serial. -/
theorem chainIsFollowedAndSetsFetched : Obligations.ChainIsFollowedAndSetsFetched := by
  intro j bus s hj ha l u mem
  have hj' : (s.busRead bus).lanes.job = some j := hj
  refine ⟨fun hp hn he => ?_, fun hp hn he => ?_, fun hp => execNextLinkRead_waits hj ha hp, fun link hp he => ?_,
    execHeaderRead_waits hj⟩
  · rw [execNextLinkRead_clean hj ha hp he rfl, if_pos hn, work_ended hj' ha, State.laneServed, if_pos hn]
    rfl
  · intro link
    have hnot : ¬j.stopNoted = true := by rw [hn]; decide
    refine ⟨fun h0 => ?_, fun h0 h16 => ?_⟩
    · obtain ⟨hfollow, hnone⟩ := follow_zero (s := s.busRead bus) (l := j.lane)
      rw [execNextLinkRead_clean hj ha hp he h0.symm, if_neg hnot, hfollow, hnone, work_ended hj' ha,
        State.laneServed, if_neg hnot]
      rfl
    · obtain ⟨hfollow, hnone⟩ := follow_aligned (s := s.busRead bus) (l := j.lane) h0 ((aligned_iff link).2 h16)
      rw [execNextLinkRead_clean hj ha hp he rfl, if_neg hnot, hfollow, hnone,
        work_reading (s := s.busRead bus) ha (p := .headerRead link) nofun, busRead_in_phase hj]
  · intro bs serial mark hserial
    have hmark : fetchMark (headerOf link bs) l j.stopNoted = mark := if_congr (malformed_iff _ l) rfl rfl
    have hfirst : (u.intake.isEmpty && mark == .ordinary) = true ↔ u.intake = [] ∧ mark = .ordinary := by simp
    rw [execHeaderRead_fetches hj ha hp he rfl hserial, State.fetch, fetchTasks, hmark, if_congr hfirst rfl rfl]
    rfl

end Sys2Proof.Machine
end

section
/-! PROOFS. The fault halts of a lane, failed writes among them, and the requests a lane takes (05 R106 to R111). -/

namespace Sys2Proof.Machine

variable {s : State} {l : Lane} {j : BoundaryJob} {bus : BusEvent}

/-! ## Failed writes (05 R106, R110, R111) -/

/-- What a fault halt leaves to do for a RUNNING lane, whether or not an entry of it is ending. -/
theorem haltTasks_eq {c : FaultCode} {a : Word} {n : Half} (hrun : (s.lane l).state = .running) (ending : Bool) :
    s.haltTasks ending l c a n =
      (if ending then []
       else if (s.lane l).flight = none ∧ (s.lane l).intake ≠ [] then
        [.writeEntryOutcome l, .writeEntryReleased l, .notifyEntry l, .removeEntry l, .endEntries l]
       else []) ++ [.writeState l] := by
  cases ending with
  | true => exact if_pos hrun
  | false => exact haltTasks_running s l c a n hrun

section

variable {w : LaneTask} {rest : List LaneTask} {a address : Word} {bs : List Byte} {landed : List Nat} {serial : Half}

theorem execLaneRecordWrite_fails (hagenda : s.lanes.agenda = w :: rest) (hw : w.busWrite s = some (a, bs))
    (he : bus.error = some landed) (hc : w.concerns s = (l, address, serial)) {t : State}
    (ht : t =
      { s with mem := Memory.writeSome (fun i => landed.contains i) 0 (Memory.hostWrites s.mem bus.host) a bs }) :
    exec (.laneRecordWrite bus) s = .next
      (State.work (t.haltTasks w.inEnding l .outcomeWrite address serial ++ rest)
        (t.haltLane l .outcomeWrite address serial)) := by
  have hmem : s.busWrite bus a bs = t := by rw [ht, State.busWrite, busWriteMemory, he]
  show execLaneRecordWrite bus s = _
  unfold execLaneRecordWrite
  rw [hagenda]
  dsimp only
  rw [hw]
  dsimp only
  rw [if_neg (by rw [busClean_error (by rw [he]; nofun)]; decide), hc, hmem]

/-- The writes that can fail, with the lane each is made for and the set its fault entry names. -/
theorem concerns_of_write
    (h : (w = .writeState l ∨ w = .writeAnchorZero l ∨ (∃ link, w = .writeHead l link) ∨
            (∃ ticket done, w = .writeAck l ticket done)) ∧ address = 0 ∧ serial = 0 ∨
          w = .writeAnchor l ∧ address = (s.lane l).anchor.getD 0 ∧ serial = (s.lane l).expected.getD 0 - 1 ∨
          w = .writeReleased l serial address ∨
          (∃ e es, (s.lane l).intake = e :: es ∧ (w = .writeEntryOutcome l ∨ w = .writeEntryReleased l) ∧
            address = e.header.address ∧ serial = e.header.serial)) :
    w.concerns s = (l, address, serial) ∧
      (w.inEnding = true ↔ w = .writeEntryOutcome l ∨ w = .writeEntryReleased l) := by
  rcases h with ⟨rfl | rfl | ⟨link, rfl⟩ | ⟨ticket, done, rfl⟩, rfl, rfl⟩ | ⟨rfl, rfl, rfl⟩ | rfl |
    ⟨e, es, hi, rfl | rfl, rfl, rfl⟩
  case inr.inr.inr.inl | inr.inr.inr.inr =>
    exact ⟨by rw [LaneTask.concerns, hi], by simp [LaneTask.inEnding]⟩
  all_goals exact ⟨rfl, by simp [LaneTask.inEnding]⟩

end

/-- Settles O50: each read by the phase that asked for it, a failed write by the lane's state. -/
theorem faultsHaltTheLane : Obligations.FaultsHaltTheLane := by
  intro l bus s u record mem expected endings told halting
  refine ⟨?_, ?_⟩
  · rintro j hj rfl ha hrun halted
    have hnot : u.state ≠ .draining := by rw [hrun]; decide
    refine ⟨fun hp he => execLaneRequestRead_halts hj ha hp hrun he, ?_,
      fun hp he => execNextLinkRead_halts hj ha hp hrun he,
      fun link hp hn he hlink h16 => execNextLinkRead_misaligned hj ha hp he hn hrun hlink (mt (aligned_iff link).1 h16),
      fun link hp he => execHeaderRead_halts hj ha hp hrun he, ?_⟩
    · rintro link hp hn he hticket hroom hrecord rfl h16
      rw [execLaneRequestRead_polls hj ha hp hnot he rfl hticket]
      exact congrArg Host.Outcome.next
        (work_startPoll_misaligned (s := s.busRead bus) hj hn hrun hroom hrecord (mt (aligned_iff _).1 h16))
    · rintro link serial hp he rfl hsome hother
      exact execHeaderRead_sequence hj ha hp hrun he rfl (not_or.2 ⟨hsome, hother⟩)
  · intro w rest a bs landed hagenda hw he written address serial h
    obtain ⟨hconcerns, hending⟩ := concerns_of_write h
    let t : State := { s with mem := written }
    have hlane : t.lane l = u := rfl
    have hout : s.outstandingWrite .laneService = w.busWrite s := by rw [State.outstandingWrite, hagenda]
    have hnone : u.state ≠ .running → t.haltTasks w.inEnding l .outcomeWrite address serial = [] := fun h => if_neg h
    rw [execLaneRecordWrite_fails hagenda (hout.symm.trans hw) he hconcerns (t := t) rfl]
    refine ⟨fun hrun => ?_, fun hdrain => ?_, fun hidle => ?_⟩
    · rw [← hlane] at hrun
      rw [work_haltTasks hrun, haltTasks_eq hrun, haltLane_running _ _ _ _ _ hrun, if_congr hending rfl rfl]
      rfl
    · rw [hnone (by rw [hdrain]; decide), haltLane_draining (s := t) hdrain]
      rfl
    · have hnot : u.state ≠ .running := by rcases hidle with h | h <;> rw [h] <;> decide
      rw [hnone hnot, haltLane_idle (s := t) hidle]
      rfl

/-! ## Lane requests (05 R97, R107 to R109) -/

/-- The request step with its record read and a new ticket in it, before the ticket is put down. -/
def State.requestTaken (s : State) (j : BoundaryJob) (bus : BusEvent) : State :=
  { s with
    mem := Memory.hostWrites s.mem bus.host
    lanes := { s.lanes with job := some { j with phase := .acting, ticketTaken := true } } }

theorem takeTicket_eq (hj : s.lanes.job = some j) (bus : BusEvent) (ticket : Byte) :
    ((s.busRead bus).setPhase .acting).takeTicket j.lane ticket =
      (s.requestTaken j bus).setLane j.lane { s.lane j.lane with lastTicket := some ticket } := by
  rw [busRead_in_phase hj]
  rfl

theorem execLaneRequestRead_acts {r : LaneRecord} (hj : s.lanes.job = some j) (ha : s.lanes.agenda = [])
    (hp : j.phase = .recordRead) (hdrain : (s.lane j.lane).state ≠ .draining) (he : bus.error = none)
    (hr : laneRecordOf (Memory.readBytes (Memory.hostWrites s.mem bus.host) (s.laneRecord j.lane) 32) = r)
    (hticket : (s.lane j.lane).lastTicket ≠ some r.ticket) {t : State}
    (ht : t = (s.requestTaken j bus).setLane j.lane { s.lane j.lane with lastTicket := some r.ticket }) :
    exec (.laneRequestRead bus) s = .next (State.work (t.actOnRequest j.lane r).2 (t.actOnRequest j.lane r).1) := by
  rw [execLaneRequestRead_clean hj ha hp hdrain he, hr, ht, ← takeTicket_eq hj]
  exact congrArg Host.Outcome.next (if_neg hticket)

section

variable {r : LaneRecord}

theorem actOnRequest_off (h : (s.lane l).state = .off) :
    s.actOnRequest l r = (s, [.writeAck l r.ticket false, .startPoll l r.headLink]) := by
  simp only [State.actOnRequest, h]

/-- 05 R109: a code of 0 asks for nothing. -/
theorem actOnRequest_none (h : (s.lane l).state ≠ .off) (hcode : r.code.toNat = 0) :
    s.actOnRequest l r = (s, [.writeAck l r.ticket true, .startPoll l r.headLink]) := by
  unfold State.actOnRequest
  rw [hcode]
  cases hstate : (s.lane l).state with
  | off => exact absurd hstate h
  | _ => rfl

/-- 05 R107. -/
theorem actOnRequest_resume (h : (s.lane l).state = .halted) (hcode : r.code.toNat = 1) :
    s.actOnRequest l r =
      (s.setLane l { s.lane l with anchor := none, expected := none, haltReason := .none, state := .running },
        [.writeState l, .writeAnchorZero l, .writeHead l r.requestHead, .writeAck l r.ticket true,
         .startPoll l r.requestHead]) := by
  simp only [State.actOnRequest, h, hcode]

/-- A lane that runs has nothing to resume. -/
theorem actOnRequest_resume_refused (h : (s.lane l).state = .running) (hcode : r.code.toNat = 1) :
    s.actOnRequest l r = (s, [.writeAck l r.ticket false, .startPoll l r.headLink]) := by
  simp only [State.actOnRequest, h, hcode]

/-- 05 R108: DRAIN and HALT begin to drain a lane that is RUNNING. -/
theorem actOnRequest_drains (h : (s.lane l).state = .running) {target : DrainTarget}
    (hcode : r.code.toNat = 2 ∧ target = .running ∨ r.code.toNat = 3 ∧ target = .halted) {t : State}
    (ht : (s.setLane l { s.lane l with ackOwed := true }).beginDraining l target = t) :
    s.actOnRequest l r = (t, t.endTasks l ++ [.writeState l, .startPoll l r.headLink]) := by
  subst ht
  rcases hcode with ⟨hcode, rfl⟩ | ⟨hcode, rfl⟩ <;> simp only [State.actOnRequest, h, hcode]

/-- A HALTED lane has drained already. -/
theorem actOnRequest_drained (h : (s.lane l).state = .halted) (hcode : r.code.toNat = 2 ∨ r.code.toNat = 3) :
    s.actOnRequest l r = (s, [.writeAck l r.ticket true, .startPoll l r.headLink]) := by
  rcases hcode with hcode | hcode <;> simp only [State.actOnRequest, h, hcode]

theorem actOnRequest_unknown (hcode : 4 ≤ r.code.toNat) :
    s.actOnRequest l r = (s, [.writeAck l r.ticket false, .startPoll l r.headLink]) := by
  unfold State.actOnRequest
  obtain ⟨n, hn⟩ := Nat.exists_eq_add_of_le' hcode
  rw [hn]
  cases (s.lane l).state <;> rfl

end

theorem beginDraining_setLane (s : State) (l : Lane) (u : LaneUnit) (target : DrainTarget) :
    (s.setLane l u).beginDraining l target =
      { s.setLane l
          { u with
            intake := markOrdinary .dropped u.intake
            abortsOutstanding := u.abortsOutstanding + 1
            drainTarget := target
            state := .draining } with
        mail := { s.mail with abortLanes := s.mail.abortLanes ++ [l] } } := by
  unfold State.beginDraining
  simp only [State.lane_setLane_same, State.setLane_setLane, State.setLane_mail]

/-- 05 R108: the endings of a lane that begins to drain come before its new state is written. -/
theorem work_beginDraining {u : LaneUnit} {target : DrainTarget} {t : State} (rest : List LaneTask)
    (ht : t = (s.setLane l u).beginDraining l target) :
    State.work (t.endTasks l ++ .writeState l :: rest) t =
      t.setAgenda
        ((if u.flight = none ∧ u.intake ≠ [] then
          [.writeEntryOutcome l, .writeEntryReleased l, .notifyEntry l, .removeEntry l, .endEntries l]
        else []) ++ .writeState l :: rest) := by
  have hlane : t.lane l =
      { u with
        intake := markOrdinary .dropped u.intake
        abortsOutstanding := u.abortsOutstanding + 1
        drainTarget := target
        state := .draining } := by
    rw [ht, beginDraining_setLane]
    exact State.lane_setLane_same _ _ _
  rw [work_endTasks, endTasks_marked t l u .dropped (by decide) (by rw [hlane]) (by rw [hlane])]

/-- Settles O49: the request by the lane's state and the code, each with what it writes before the poll. -/
theorem laneRequestsAreTaken : Obligations.LaneRequestsAreTaken := by
  intro j bus s hj ha hp he l u mem bs code ticket hdrain hticket acted drained answered
  let r : LaneRecord := laneRecordOf bs
  let t : State := (s.requestTaken j bus).setLane l { u with lastTicket := some ticket }
  have hlane : t.lane l = { u with lastTicket := some ticket } := State.lane_setLane_same _ _ _
  have hexec : ∀ a, t.actOnRequest l r = a → exec (.laneRequestRead bus) s = .next (State.work a.2 a.1) := by
    rintro a rfl
    exact execLaneRequestRead_acts hj ha hp hdrain he rfl hticket rfl
  have hacted : ∀ (v : LaneUnit) (w : LaneTask) (rest : List LaneTask), w.isWrite = true →
      State.work (w :: rest) (t.setLane l { v with lastTicket := some ticket }) = acted v (w :: rest) [] := by
    intro v w rest hw
    rw [work_write _ rest hw, State.setLane_setLane]
    dsimp only [acted]
    rw [List.append_nil]
    rfl
  have hanswered : ∀ done, t.actOnRequest l r = (t, [.writeAck l r.ticket done, .startPoll l r.headLink]) →
      exec (.laneRequestRead bus) s = .next (answered done) := by
    intro done h
    refine (hexec _ h).trans (congrArg Host.Outcome.next ?_)
    have hack := hacted u (.writeAck l ticket done) [.startPoll l (wordAt bs 0)] rfl
    rwa [State.setLane_setLane] at hack
  have hdrained : ∀ target, u.state = .running →
      (code = 2 ∧ target = .running ∨ code = 3 ∧ target = .halted) →
      exec (.laneRequestRead bus) s = .next (drained target) := by
    intro target hrun hcode
    refine (hexec _ (actOnRequest_drains ((congrArg LaneUnit.state hlane).trans hrun) hcode rfl)).trans ?_
    rw [work_beginDraining _ rfl, beginDraining_setLane, hlane, State.setLane_setLane]
    rfl
  have hstate : (t.lane l).state = u.state := by rw [hlane]
  rw [← hstate]
  refine ⟨fun h => hanswered _ (actOnRequest_off h), fun h hcode => hanswered _ (actOnRequest_none h hcode),
    fun h hcode => hanswered _ (actOnRequest_resume_refused h hcode), fun h hcode => ?_,
    fun h hcode => hdrained _ (hstate.symm.trans h) (.inl ⟨hcode, rfl⟩),
    fun h hcode => hdrained _ (hstate.symm.trans h) (.inr ⟨hcode, rfl⟩),
    fun h hcode => hanswered _ (actOnRequest_drained h hcode),
    fun _ hcode => hanswered _ (actOnRequest_unknown hcode)⟩
  rw [hexec _ (actOnRequest_resume h hcode), hlane]
  exact congrArg Host.Outcome.next
    (hacted { u with anchor := none, expected := none, haltReason := .none, state := .running } _ _ rfl)

end Sys2Proof.Machine
end

section
/-! PROOFS. The setup of the lanes at START (05 R95, R117). -/

namespace Sys2Proof.Machine

variable {s : State} {l : Lane} {bus : BusEvent}

section

variable (hsetup : s.lanes.setup = some l) (ha : s.lanes.agenda = [])
include hsetup ha

theorem execLaneSetup_clean {bs : List Byte} (he : bus.error = none)
    (hbs : Memory.readBytes (Memory.hostWrites s.mem bus.host) (s.laneRecord l) 32 = bs) :
    exec (.laneSetup bus) s = .next
      (((s.busRead bus).setLane l ((s.lane l).setUp (laneRecordOf bs))).setAgenda
        [.writeState l, .writeAnchorZero l, .nextSetup l]) := by
  show execLaneSetup bus s = _
  rw [execLaneSetup, hsetup, ha]
  dsimp only
  rw [busData_clean s he, hbs]
  exact congrArg Host.Outcome.next (work_write _ _ rfl)

/-- 05 R95: a failed read halts the lane. -/
theorem execLaneSetup_fails (he : bus.error ≠ none) :
    exec (.laneSetup bus) s = .next
      (((((s.busRead bus).setLane l (s.lane l).setUpFailed).askFault .laneService
        (haltRequest l .linkFault 0 0)).askFlag .lane).setAgenda [.writeState l, .nextSetup l]) := by
  show execLaneSetup bus s = _
  rw [execLaneSetup, hsetup, ha]
  dsimp only
  rw [busData_error s he]
  exact congrArg Host.Outcome.next (work_write _ _ rfl)

end

theorem execLaneSetup_waits (h : s.lanes.setup = none ∨ s.lanes.agenda ≠ []) :
    exec (.laneSetup bus) s = .next s := by
  refine congrArg Host.Outcome.next ?_
  split
  · rename_i hsetup ha
    rcases h with h | h
    · cases hsetup.symm.trans h
    · exact absurd ha h
  · rfl

/-- 05 R95: a record copied, with the enable flag and the class as their bytes give them. -/
theorem setUp_eq (u : LaneUnit) (bs : List Byte) :
    u.setUp (laneRecordOf bs) =
      { u with
        enable := byteAt bs 8 != 0
        laneClass := if byteAt bs 9 = 1 then .urgent else .normal
        weight := byteAt bs 10
        relax := byteAt bs 11
        lastTicket := some (byteAt bs 16)
        anchor := none
        expected := none
        haltReason := .none
        drainTarget := .running
        abortsOutstanding := 0
        ackOwed := false
        state := if byteAt bs 8 = 0 then .off else .running } := by
  have hstate : (if (byteAt bs 8 != 0) = true then LaneState.running else .off) =
      if byteAt bs 8 = 0 then .off else .running := by
    by_cases h : byteAt bs 8 = 0 <;> simp [h]
  rw [← hstate]
  rfl

/-- After the last write of a lane's setup the next lane is set up, and after lane 3 the setup is complete. -/
theorem work_nextSetup (hj : s.lanes.job = none) :
    State.work [.nextSetup l] s =
      if l = 3 then
        { s with
          lanes := { s.lanes with setup := none, agenda := [] }
          mail := { s.mail with setupComplete := true } }
      else { s with lanes := { s.lanes with setup := some (l + 1), agenda := [] } } := by
  have hfree : ∀ t : State, t.lanes.job = none → State.work [] t = t.setAgenda [] := fun t ht =>
    work_nil_working t (by rw [ht]; nofun)
  rw [work_perform s [] rfl rfl, State.perform, State.nextSetup]
  by_cases hl : l = 3
  · subst hl
    exact hfree _ hj
  · rw [if_neg hl, nextLane_of_ne_last hl]
    exact hfree _ hj

/-- Settles O47: the read of the record by its success, then the last write of the lane's setup. -/
theorem lanesAreSetUpAtStart : Obligations.LanesAreSetUpAtStart := by
  intro l bus s record mem bs
  refine ⟨execLaneSetup_waits, fun hsetup ha he => ?_, fun hsetup ha he => execLaneSetup_fails hsetup ha he, ?_⟩
  · rw [execLaneSetup_clean hsetup ha he rfl, setUp_eq]
    rfl
  · intro w hagenda hw hj he written
    have hwrites : ∃ a ts, w.busWrite s = some (a, ts) ∧ Memory.writeBytes mem a ts = written := by
      rcases hw with rfl | rfl
      · exact ⟨_, _, rfl, (if_neg nofun).symm⟩
      · exact ⟨_, _, rfl, (if_pos rfl).symm⟩
    obtain ⟨a, ts, hbus, hmem⟩ := hwrites
    have hj' : ({ s with mem := Memory.writeBytes mem a ts } : State).lanes.job = none := hj
    refine (execLaneRecordWrite_clean hagenda hbus he).trans ?_
    rw [work_nextSetup hj', hmem]

end Sys2Proof.Machine
end

section
/-! PROOFS. The waits of SLEEPING and STOPPING and the endings of a STOP in SLEEP (07 R137, R139 to R141). -/

namespace Sys2Proof.Machine

variable {s : State}

theorem forall_lanes_iff {p : Lane → Prop} : (∀ l ∈ allLanes, p l) ↔ ∀ l, p l := by
  have hall : ∀ l, l ∈ allLanes := by decide
  exact ⟨fun h l => h l (hall l), fun h l _ => h l⟩

theorem intakesEmpty_iff : s.intakesEmpty = true ↔ ∀ l, (s.lane l).intake = [] := by
  simp only [State.intakesEmpty, List.all_eq_true, List.isEmpty_iff, forall_lanes_iff]

theorem flightNotesClear_iff : s.flightNotesClear = true ↔ ∀ l, (s.lane l).flight = none := by
  simp only [State.flightNotesClear, List.all_eq_true, Option.isNone_iff_eq_none, forall_lanes_iff]

/-- 07 R140, R141, 05 R95: what a STOP waits for in the Lane Service and the engine (log 16). -/
theorem endingsOver_iff :
    s.endingsOver = true ↔
      (∀ l, (s.lane l).intake = []) ∧ (∀ l, (s.lane l).flight = none) ∧ s.mail.stopNotice = false ∧
        s.mail.abortStop = false ∧ s.lanes.job = none := by
  simp only [State.endingsOver, Bool.and_eq_true, intakesEmpty_iff, flightNotesClear_iff, Bool.not_eq_true',
    Option.isNone_iff_eq_none, and_assoc]

/-- An order to begin counts as scanning (log 18). -/
theorem scanning_iff :
    s.scanning = true ↔
      s.scan.mode ≠ .still ∨ .begin ∈ s.mail.scanOrders ∨ .beginBlank ∈ s.mail.scanOrders := by
  simp only [State.scanning, Bool.or_eq_true, bne_iff_ne, List.any_eq_true, beq_iff_eq]
  refine or_congr_right ⟨?_, ?_⟩
  · rintro ⟨o, ho, rfl | rfl⟩
    · exact .inl ho
    · exact .inr ho
  · rintro (ho | ho)
    · exact ⟨_, ho, .inl rfl⟩
    · exact ⟨_, ho, .inr rfl⟩

theorem execSleepStopEndingsDone_eq (s : State) :
    exec .sleepStopEndingsDone s = .next
      (if s.mode.endingsAwaited = true ∧ s.endingsOver = true then
        { s with
          mode := { s.mode with
            part := .off, faultHeld := false, endingsAwaited := false
            command := if s.mode.command = .endings then .answered .ok else s.mode.command }
          mail := { s.mail with flagRequests := s.mail.flagRequests ++ [.done] } }
      else s) := by
  refine congrArg Host.Outcome.next (if_congr Iff.rfl ?_ rfl)
  dsimp only
  split <;> rfl

/-- Settles O13: each wait by the conditions it ends on. -/
theorem waitsEnd : Obligations.WaitsEnd := by
  refine ⟨fun s => ⟨rfl, ?_, ?_⟩, fun s => ?_⟩
  · refine congrArg Host.Outcome.next (if_congr ?_ rfl rfl)
    rw [scanning_iff]
  · refine congrArg Host.Outcome.next (if_congr ?_ rfl rfl)
    rw [endingsOver_iff]
  · rw [execSleepStopEndingsDone_eq]
    exact congrArg Host.Outcome.next (if_congr (and_congr_right' endingsOver_iff) rfl rfl)

end Sys2Proof.Machine
end

section
/-! PROOFS. What the Grant Arbiter reads of a lane (06 R118), and the aging of the candidates at a boundary (06 R123,
R124). -/

namespace Sys2Proof.Machine

/-! ## The class, the weight in use and the relax threshold (06 R118) -/

theorem laneClass_urgent_iff (bs : List Byte) : (laneRecordOf bs).laneClass = .urgent ↔ byteAt bs 9 = 1 := by
  show (if byteAt bs 9 = 1 then LaneClass.urgent else .normal) = .urgent ↔ _
  split
  case isTrue hb => exact iff_of_true rfl hb
  case isFalse hb => exact iff_of_false nofun hb

/-- A class is one of two, so the class is NORMAL where it is not URGENT. -/
theorem laneClass_normal_iff (bs : List Byte) : (laneRecordOf bs).laneClass = .normal ↔ byteAt bs 9 ≠ 1 := by
  rw [ne_eq, ← laneClass_urgent_iff]
  cases (laneRecordOf bs).laneClass with
  | normal => decide
  | urgent => decide

section

variable {u : LaneUnit}

theorem weightInUse_zero (h : u.weight.toNat = 0) : u.weightInUse = 1 := if_pos h

theorem weightInUse_within (h1 : 1 ≤ u.weight.toNat) (h15 : u.weight.toNat ≤ 15) :
    u.weightInUse = u.weight.toNat :=
  (if_neg (Nat.ne_of_gt h1)).trans (if_neg (Nat.not_lt.2 h15))

theorem weightInUse_above (h : 15 < u.weight.toNat) : u.weightInUse = 15 :=
  (if_neg (Nat.ne_of_gt (Nat.zero_lt_of_lt h))).trans (if_pos h)

/-- 06 R118: every lane receives at least one credit in each round. -/
theorem one_le_weightInUse (u : LaneUnit) : 1 ≤ u.weightInUse := by
  rcases Nat.eq_zero_or_pos u.weight.toNat with h0 | hpos
  · exact (weightInUse_zero h0).ge
  · rcases Nat.lt_or_ge 15 u.weight.toNat with h15 | h15
    · rw [weightInUse_above h15]
      decide
    · exact (weightInUse_within hpos h15).symm ▸ hpos

end

/-! ## The aging of one lane (06 R123, R124) -/

section

variable {a : ArbiterLane} {candidate : Bool}

/-- A wait count rises by one up to 255; one above 255, which no run reaches, stays where it is. -/
theorem raisedWait_eq (w : Nat) : (if w < 255 then w + 1 else w) = min (w + 1) (max w 255) := by
  split <;> omega

theorem age_waiting (h : (candidate && !a.granted) = true) (relax : Nat) :
    a.age candidate relax =
      { credit := a.credit, wait := min (a.wait + 1) (max a.wait 255)
        promoted := a.promoted || (relax != 0 && relax ≤ min (a.wait + 1) (max a.wait 255)), granted := false } := by
  simp only [ArbiterLane.age, if_pos h, raisedWait_eq]

theorem age_not_waiting (h : (candidate && !a.granted) = false) (relax : Nat) :
    a.age candidate relax = { a with granted := false } :=
  if_neg (Bool.eq_false_iff.1 h)

/-- A relax threshold of 0 promotes nobody. -/
theorem age_zero_promoted (a : ArbiterLane) (candidate : Bool) : (a.age candidate 0).promoted = a.promoted := by
  cases h : candidate && !a.granted with
  | true => rw [age_waiting h]; exact Bool.or_false _
  | false => rw [age_not_waiting h]

/-- The aging with its occasion, candidate and not granted, said in each value. -/
theorem age_eq (a : ArbiterLane) (candidate : Bool) (relax : Nat) :
    a.age candidate relax =
      let aged := candidate && !a.granted
      let count := if aged then min (a.wait + 1) (max a.wait 255) else a.wait
      { credit := a.credit, wait := count, promoted := a.promoted || aged && relax != 0 && relax ≤ count
        granted := false } := by
  dsimp only
  cases h : candidate && !a.granted with
  | true => rw [age_waiting h]; rfl
  | false => rw [age_not_waiting h]; exact congrArg (ArbiterLane.mk _ _ · _) (Bool.or_false _).symm

end

/-! ## A boundary at the arbiter (06 R124) -/

section

variable {s : State}

theorem execArbiterBoundary_nil (h : s.mail.arbiterBoundary = []) : exec .arbiterBoundary s = .next s := by
  show execArbiterBoundary s = _
  rw [execArbiterBoundary, h]

theorem execArbiterBoundary_cons {frame : Word} {rest : List Word} (h : s.mail.arbiterBoundary = frame :: rest) :
    exec .arbiterBoundary s = .next
      { s with
        mail := { s.mail with arbiterBoundary := rest }
        arbiter := { s.arbiter with
          lanes := .ofFn fun l => (s.arbiter.lanes.get l).age (s.candidate l) (s.lane l).relax.toNat } } := by
  show execArbiterBoundary s = _
  rw [execArbiterBoundary, h]
  rfl

theorem candidate_eq_false (hactive : s.mode.part ≠ .active) (hhold : s.mode.part ≠ .hold) (l : Lane) :
    s.candidate l = false :=
  Bool.eq_false_iff.2 fun hc => (candidate_iff.1 hc).1.elim hactive hhold

end

/-! ## The statements -/

/-- Settles O41: the class by its byte, the weight in use by its range. -/
theorem classAndWeightAreReadAsGiven : Obligations.ClassAndWeightAreReadAsGiven := by
  refine ⟨fun bs => ⟨laneClass_urgent_iff bs, laneClass_normal_iff bs, rfl, rfl⟩, fun u => ?_, age_zero_promoted⟩
  have hfailed : u.setUpFailed.weightInUse = 1 := weightInUse_zero rfl
  exact ⟨weightInUse_within, weightInUse_zero, weightInUse_above, one_le_weightInUse u, weightInUse_le u, hfailed⟩

/-- Settles O44, by whether a notice waits; each lane ages as `age_eq` says. -/
theorem boundaryAgesTheCandidates : Obligations.BoundaryAgesTheCandidates := by
  intro s
  refine ⟨execArbiterBoundary_nil, fun frame rest h => ?_, candidate_eq_false⟩
  rw [execArbiterBoundary_cons h]
  simp only [age_eq]

end Sys2Proof.Machine
end

section
/-! SUPPORT. What the invariant of part state, panel, Scan Unit and command slot reads of a state (07 R127, R144, 09
R160), and the commands that leave all of it alone: those of every unit but the Mode Controller, the Scan Unit's orders
and rows, the command slot and the resets. -/

namespace Sys2Proof.Machine

/-! ## What the invariant reads -/

/-- All that `State.ModeConsistent` reads of a state. -/
structure ModeView where
  part    : PartState
  panel   : Panel
  halting : Bool
  startup : StartupStep
  endings : Bool
  command : CommandPhase
  inHand  : Option PartCommand
  scan    : ScanMode
  orders  : List ScanOrder

/-- The mode view of a state. -/
def State.modeView (s : State) : ModeView where
  part := s.mode.part
  panel := s.mode.panel
  halting := s.mode.haltSent
  startup := s.mode.startup
  endings := s.mode.endingsAwaited
  command := s.mode.command
  inHand := s.port.inHand
  scan := s.scan.mode
  orders := s.mail.scanOrders

/-- The command answers with a state that has the mode view of `s`. -/
def State.LeavesView (s : State) (r : Result) : Prop := ∃ t, r = .next t ∧ t.modeView = s.modeView

theorem leavesView {s t : State} (h : t.modeView = s.modeView) : s.LeavesView (.next t) := ⟨t, rfl, h⟩

theorem State.LeavesView.view {s t : State} {r : Result} (h : s.LeavesView r) (e : r = .next t) :
    t.modeView = s.modeView := by
  obtain ⟨_, rfl, h⟩ := h
  cases e
  exact h

theorem view_ite {v : ModeView} {a b : State} {p : Prop} [Decidable p] (ha : a.modeView = v) (hb : b.modeView = v) :
    (if p then a else b).modeView = v := by split <;> assumption

variable (s : State)

/-! ## The Apply Engine -/

theorem view_beginOp (sl : Slot) (op : OpRecord) (k : OpKind) : (s.beginOp sl op k).modeView = s.modeView := by
  cases k <;> rfl

theorem view_lineNamed (sl : Slot) (op : OpRecord) (line : Nat) : (s.lineNamed sl op line).modeView = s.modeView := by
  unfold State.lineNamed
  split
  case h_2 => exact view_ite rfl rfl
  all_goals rfl

theorem view_spansDone (sl : Slot) (op : OpRecord) : (s.spansDone sl op).modeView = s.modeView := by
  unfold State.spansDone
  split
  case h_1 | h_2 => exact view_ite rfl rfl
  all_goals rfl

theorem view_damageMet (sl : Slot) (line row : Nat) (newly : Bool) :
    (s.damageMet sl line row newly).modeView = s.modeView := by
  rw [damageMet_eq]
  split <;> rfl

theorem view_requestAbort (sl : Slot) (c : AbortCause) : (s.requestAbort sl c).modeView = s.modeView :=
  view_ite rfl (view_ite rfl rfl)

theorem leavesView_execTrailerReadStart (bus : BusEvent) : s.LeavesView (execTrailerReadStart bus s) := by
  refine leavesView ?_
  split
  · dsimp only
    split
    · rfl
    · rfl
    · exact view_ite rfl rfl
  · rfl

theorem leavesView_execOpRecordRead (bus : BusEvent) : s.LeavesView (execOpRecordRead bus s) := by
  refine leavesView ?_
  split
  · dsimp only
    split
    · rfl
    · rfl
    · split
      · rfl
      · exact view_beginOp _ _ _ _
  · rfl

theorem leavesView_execWriteClaimAnswer : s.LeavesView (execWriteClaimAnswer s) := by
  refine leavesView ?_
  split
  · split
    case h_3 => exact view_lineNamed s _ _ _
    all_goals rfl
  · rfl

theorem leavesView_execEngineLineReadAnswer : s.LeavesView (execEngineLineReadAnswer s) := by
  refine leavesView ?_
  split
  · split
    case h_1 => exact view_damageMet s _ _ _ _
    all_goals rfl
  · split
    case h_1 => exact view_damageMet s _ _ _ _
    all_goals rfl
  · rfl

theorem leavesView_execEngineLineWriteDone : s.LeavesView (execEngineLineWriteDone s) := by
  refine leavesView ?_
  split
  · split
    case h_2 => exact view_lineNamed s _ _ _
    all_goals rfl
  · split
    case h_3 => exact view_spansDone s _ _
    all_goals rfl
  · rfl

theorem leavesView_execAliasClaimAnswer : s.LeavesView (execAliasClaimAnswer s) := by
  refine leavesView ?_
  split
  · split
    case h_1 => exact view_damageMet s _ _ _ _
    all_goals rfl
  · rfl

theorem leavesView_execSourceRowRead (bus : BusEvent) : s.LeavesView (execSourceRowRead bus s) := by
  refine leavesView ?_
  split
  · split
    · rfl
    · dsimp only
      split
      case h_3 => split <;> rfl
      all_goals rfl
  · rfl

theorem leavesView_execReadbackRowWrite (bus : BusEvent) : s.LeavesView (execReadbackRowWrite bus s) := by
  refine leavesView ?_
  split
  · split
    · rfl
    · dsimp only
      split
      · rfl
      · exact view_ite rfl (view_ite rfl rfl)
  · rfl

theorem leavesView_execTrailerReadEnd (bus : BusEvent) : s.LeavesView (execTrailerReadEnd bus s) := by
  refine leavesView ?_
  split
  · dsimp only
    split
    · rfl
    · rfl
    · exact view_ite rfl rfl
  · rfl

theorem leavesView_execReleaseNotice : s.LeavesView (execReleaseNotice s) := by
  refine leavesView ?_
  split
  · rfl
  · dsimp only
    split
    · exact view_ite rfl rfl
    · rfl

theorem leavesView_execAbortRequestStop : s.LeavesView (execAbortRequestStop s) := by
  refine leavesView (view_ite ?_ rfl)
  dsimp only
  split
  · rfl
  · exact view_requestAbort _ _ _

theorem leavesView_execAbortRequestLane : s.LeavesView (execAbortRequestLane s) := by
  refine leavesView ?_
  split
  · rfl
  · dsimp only
    split
    · rfl
    · exact view_ite (view_requestAbort _ _ _) rfl

/-! ## The Map Unit and the Line Store -/

theorem view_reportMark (line n : Nat) : (s.reportMark line n).modeView = s.modeView := view_ite rfl rfl

theorem view_serveRead (n : Nat) (flaws : List (Nat × Flaw)) : (s.serveRead n flaws).modeView = s.modeView := by
  unfold State.serveRead
  split
  · exact view_reportMark _ _ _
  all_goals rfl

theorem leavesView_execAliasClaim (flaws : List (Nat × Flaw)) : s.LeavesView (execAliasClaim flaws s) := by
  refine leavesView ?_
  split
  · split
    · rfl
    · dsimp only
      split <;> exact view_serveRead s _ flaws
  · rfl

/-- What the read answers goes to the row in progress. -/
theorem view_rowPhase (p : RowPhase) :
    ({ s with scan := { s.scan with rowPhase := p } } : State).modeView = s.modeView := rfl

theorem leavesView_execLineRead (reader : LineReader) (flaws : List (Nat × Flaw)) :
    s.LeavesView (execLineRead reader flaws s) := by
  refine leavesView ?_
  split
  · split
    · exact view_serveRead s _ flaws
    · exact view_serveRead s _ flaws
    · rfl
  · split
    · exact (view_rowPhase _ _).trans (view_serveRead s _ flaws)
    · rfl

/-! ## The Grant Arbiter and the Fault Recorder -/

theorem view_trySelect : s.trySelect.modeView = s.modeView := by
  unfold State.trySelect
  refine view_ite ?_ rfl
  split
  · rfl
  · dsimp only
    split <;> rfl

theorem view_takeFault : s.takeFault.modeView = s.modeView := by
  unfold State.takeFault
  split
  · exact view_ite rfl rfl
  · rfl

theorem view_dropFault : s.dropFault.modeView = s.modeView := view_takeFault _

theorem view_recorderFails : s.recorderFails.modeView = s.modeView := view_dropFault _

theorem leavesView_execEligibilityReport : s.LeavesView (execEligibilityReport s) := by
  refine leavesView ?_
  split
  · rfl
  · exact view_trySelect _

theorem leavesView_execGrantAnswer : s.LeavesView (execGrantAnswer s) := by
  refine leavesView ?_
  split
  · rfl
  · exact view_trySelect _
  · rfl

theorem leavesView_execFaultRequest (sender : FaultSender) : s.LeavesView (execFaultRequest sender s) := by
  refine leavesView ?_
  split
  · rfl
  · exact view_ite (view_takeFault _) rfl

theorem leavesView_execFaultSearchRead (bus : BusEvent) : s.LeavesView (execFaultSearchRead bus s) := by
  refine leavesView ?_
  split
  · dsimp only
    split
    · exact view_recorderFails _
    · exact view_ite rfl (view_ite rfl (view_dropFault _))
  · rfl

theorem leavesView_execFaultEntryWrite (bus : BusEvent) : s.LeavesView (execFaultEntryWrite bus s) := by
  refine leavesView ?_
  split
  · exact view_ite (view_dropFault _) (view_recorderFails _)
  · rfl

/-! ## The Lane Service -/

theorem view_endPollOf (l : Lane) : (s.endPollOf l).modeView = s.modeView := by
  unfold State.endPollOf
  split
  · exact view_ite rfl rfl
  · rfl

theorem view_beginDraining (l : Lane) (target : DrainTarget) : (s.beginDraining l target).modeView = s.modeView := rfl

theorem view_haltLane (l : Lane) (c : FaultCode) (a : Word) (n : Half) :
    (s.haltLane l c a n).modeView = s.modeView := by
  unfold State.haltLane
  split
  case h_1 => exact (view_endPollOf _ l).trans (view_beginDraining _ l _)
  all_goals rfl

theorem view_followLink (l : Lane) (link : Word) : (s.followLink l link).modeView = s.modeView :=
  view_ite rfl (view_ite rfl (view_haltLane s _ _ _ _))

theorem view_poll (l : Lane) (headLink : Word) : (s.poll l headLink).modeView = s.modeView :=
  view_ite (view_ite rfl (view_ite (view_followLink s _ _) (view_ite rfl rfl))) rfl

theorem view_notifyIf (asked : Bool) : (s.notifyIf asked).modeView = s.modeView := view_ite rfl rfl

theorem view_nextSetup (l : Lane) : (s.nextSetup l).modeView = s.modeView := by
  unfold State.nextSetup
  split <;> rfl

theorem view_perform (t : LaneTask) : (s.perform t).modeView = s.modeView := by
  cases t
  case notifyEntry l => exact view_notifyIf s _
  case notifyFlight l => exact view_notifyIf s _
  case outcomeHalt l a n => exact view_haltLane s _ _ _ _
  case reportEligible l => exact view_ite rfl rfl
  case startPoll l h => exact view_poll s _ _
  case continuePoll l => exact view_poll s _ _
  case nextSetup l => exact view_nextSetup s _
  all_goals rfl

theorem view_settle : s.settle.modeView = s.modeView := by
  unfold State.settle
  split
  · refine view_ite (view_ite rfl ?_) rfl
    split <;> rfl
  · rfl

theorem view_work (ts : List LaneTask) : (State.work ts s).modeView = s.modeView := by
  induction ts generalizing s with
  | nil => exact view_settle _
  | cons t rest ih => exact view_ite rfl (view_ite ((ih _).trans (view_perform s t)) (view_perform s t))

theorem view_actOnRequest (l : Lane) (r : LaneRecord) : (s.actOnRequest l r).1.modeView = s.modeView := by
  unfold State.actOnRequest
  dsimp only
  split <;> rfl

theorem view_requestStep (l : Lane) (r : LaneRecord) : (s.requestStep l r).modeView = s.modeView :=
  view_ite (view_work s _) ((view_work _ _).trans (view_actOnRequest _ l r))

theorem leavesView_execLaneRecordWrite (bus : BusEvent) : s.LeavesView (execLaneRecordWrite bus s) := by
  refine leavesView ?_
  split
  · rfl
  · split
    · rfl
    · exact view_ite (view_work _ _) ((view_work _ _).trans (view_haltLane _ _ _ _ _))

theorem leavesView_execLaneSetup (bus : BusEvent) : s.LeavesView (execLaneSetup bus s) := by
  refine leavesView ?_
  split
  · dsimp only
    split <;> exact view_work _ _
  · rfl

theorem leavesView_execLaneRequestRead (bus : BusEvent) : s.LeavesView (execLaneRequestRead bus s) := by
  refine leavesView ?_
  split
  · refine view_ite (view_ite (view_work _ _) ?_) rfl
    split
    · exact view_requestStep _ _ _
    · exact (view_work _ _).trans (view_ite (view_haltLane _ _ _ _ _) rfl)
  · rfl

theorem leavesView_execNextLinkRead (bus : BusEvent) : s.LeavesView (execNextLinkRead bus s) := by
  refine leavesView ?_
  split
  · refine view_ite ?_ rfl
    dsimp only
    split
    · exact view_ite (view_work _ _) ((view_work _ _).trans (view_followLink _ _ _))
    · exact (view_work _ _).trans (view_haltLane _ _ _ _ _)
  · rfl

theorem leavesView_execHeaderRead (bus : BusEvent) : s.LeavesView (execHeaderRead bus s) := by
  refine leavesView ?_
  split
  · split
    · dsimp only
      split
      · exact (view_work _ _).trans (view_haltLane _ _ _ _ _)
      · exact view_ite (view_work _ _) ((view_work _ _).trans (view_haltLane _ _ _ _ _))
    all_goals rfl
  · rfl

theorem leavesView_execEndReport (reporter : EndReporter) : s.LeavesView (execEndReport reporter s) := by
  refine leavesView ?_
  split
  · split
    · exact view_work _ _
    · rfl
  · split
    · exact view_work _ _
    · rfl
  · rfl

theorem leavesView_execCompletionReport : s.LeavesView (execCompletionReport s) := by
  refine leavesView ?_
  split
  · exact view_ite (view_work _ _) rfl
  · rfl

theorem leavesView_execStopNotice : s.LeavesView (execStopNotice s) := by
  refine leavesView (view_ite ?_ rfl)
  split <;> rfl

/-! ## Every such command -/

/-- The commands that may touch the mode view. -/
def reachesView : Instr → Bool
  | .powerOnReset _ | .reset _ | .resetPinAsserted _ | .enableWrite _ | .start _ | .stop _ | .sleep _ | .wake _
  | .planRead _ | .startingLineFill | .setupComplete | .rampUpEnd _ | .rampDownEnd _ | .sleepingQuiesced
  | .stoppingEngineIdle | .stoppingComplete | .boundaryEvaluation | .damageLimitReport | .recorderFailureReport
  | .rowOutput _ | .beginOrder | .beginWithBlankFrame | .frameCadence | .heldCadence | .finishOrder | .haltScanning
  | .wholeLineWrite _ | .commandResult | .sleepStopEndingsDone => true
  | _ => false

/-- Every other command leaves it as it is. -/
theorem exec_leavesView (c : Instr) (h : reachesView c = false) : s.LeavesView (exec c s) := by
  cases c with
  | registerWriteIgnored _ _ _ => exact leavesView rfl
  | exbWrite _ | stsWrite _ | frameStart _ | commitMarkEnd _ | flagSetRequest _ => exact leavesView (view_ite rfl rfl)
  | publicationComplete | readyAppend | pollReport | arbiterBoundary | overflowClear | viewRead | liveRead
  | writeClaim | unwindClaim | publishClaim | markNotice | spanWrite | committedOutcomeWrite _ =>
    refine leavesView ?_
    split <;> rfl
  | commitBoundary | laneBoundary =>
    refine leavesView ?_
    split
    · exact view_ite rfl rfl
    · rfl
  | publicationReport =>
    refine leavesView ?_
    split
    · rfl
    · exact view_ite rfl rfl
  | grant | shiftClaimAnswer | viewReadAnswer | unwindAnswer | shiftClaim | abortOutcomeWrite _ =>
    refine leavesView ?_
    split
    · split <;> rfl
    · rfl
  | laneSetup bus => exact leavesView_execLaneSetup s bus
  | laneRequestRead bus => exact leavesView_execLaneRequestRead s bus
  | nextLinkRead bus => exact leavesView_execNextLinkRead s bus
  | headerRead bus => exact leavesView_execHeaderRead s bus
  | laneRecordWrite bus => exact leavesView_execLaneRecordWrite s bus
  | endReport reporter => exact leavesView_execEndReport s reporter
  | completionReport => exact leavesView_execCompletionReport s
  | stopNotice => exact leavesView_execStopNotice s
  | eligibilityReport => exact leavesView_execEligibilityReport s
  | grantRequest => exact leavesView (view_ite (view_trySelect _) rfl)
  | grantAnswer => exact leavesView_execGrantAnswer s
  | trailerReadStart bus => exact leavesView_execTrailerReadStart s bus
  | opRecordRead bus => exact leavesView_execOpRecordRead s bus
  | writeClaimAnswer => exact leavesView_execWriteClaimAnswer s
  | engineLineReadAnswer => exact leavesView_execEngineLineReadAnswer s
  | engineLineWriteDone => exact leavesView_execEngineLineWriteDone s
  | aliasClaimAnswer => exact leavesView_execAliasClaimAnswer s
  | sourceRowRead bus => exact leavesView_execSourceRowRead s bus
  | readbackRowWrite bus => exact leavesView_execReadbackRowWrite s bus
  | trailerReadEnd bus => exact leavesView_execTrailerReadEnd s bus
  | releaseNotice => exact leavesView_execReleaseNotice s
  | abortRequestStop => exact leavesView_execAbortRequestStop s
  | abortRequestLane => exact leavesView_execAbortRequestLane s
  | aliasClaim flaws => exact leavesView_execAliasClaim s flaws
  | lineRead reader flaws => exact leavesView_execLineRead s reader flaws
  | faultRequest sender => exact leavesView_execFaultRequest s sender
  | faultSearchRead bus => exact leavesView_execFaultSearchRead s bus
  | faultEntryWrite bus => exact leavesView_execFaultEntryWrite s bus
  | _ => cases h

end Sys2Proof.Machine
end

section
/-! PROOFS. Part state, panel, Scan Unit and command slot keep in agreement (07 R127, R131, R137, R141, R144, 09 R160),
and the part state changes only as Chapter 7 gives: the invariant of a mode view, the kinds of change that keep it, and
the commands that make them. -/

namespace Sys2Proof.Machine

/-! ## The invariant of a mode view -/

/-- 07 R144: the panel conditions that a part state goes with. -/
def PartState.shows : PartState → Panel → Bool
  | .off, p | .sleep, p => p == .dark
  | .starting, p => p == .dark || p == .rising
  | .waking, p => p == .rising
  | .active, p | .hold, p | .faulted, p => p == .lit
  | .stopping, p => p == .lit || p == .falling
  | .sleeping, p => p != .rising

/-- 07 R144, log 17: the Scan Unit and its orders agree with the panel: STILL with no order unless the panel is LIT; no
halt order under way, or one, sent last, in SLEEPING. -/
inductive ScanAgrees (part : PartState) (panel : Panel) (halting : Bool) (scan : ScanMode) (orders : List ScanOrder) :
    Prop
  | unlit (hpanel : panel ≠ .lit) (hhalt : halting = false) (hscan : scan = .still) (horders : orders = [])
  | lit (hpanel : panel = .lit) (hhalt : halting = false) (horders : .haltScanning ∉ orders)
  | halting (hpanel : panel = .lit) (hpart : part = .sleeping) (hhalt : halting = true) (before : List ScanOrder)
      (horders : orders = before ++ [.haltScanning]) (hbefore : .haltScanning ∉ before)

/-- `State.ModeConsistent` of what it reads. -/
structure ModeView.Consistent (v : ModeView) : Prop where
  panel    : v.part.shows v.panel = true
  scan     : ScanAgrees v.part v.panel v.halting v.scan v.orders
  endings  : v.endings = true → v.panel = .dark ∧ (v.part = .sleep ∨ v.part = .sleeping)
  stopEnds : v.command = .endings → v.part = .sleep ∧ v.endings = true
  planning : v.command = .planRead → v.part = .off
  startup  : v.startup ≠ .none → v.part = .starting
  slot     : v.inHand = none ↔ v.command = .idle

section

variable {p : PartState}

theorem shows_rising_iff : p.shows .rising = true ↔ p = .starting ∨ p = .waking := by cases p <;> decide

theorem shows_falling_iff : p.shows .falling = true ↔ p = .sleeping ∨ p = .stopping := by cases p <;> decide

theorem shows_lit_iff :
    p.shows .lit = true ↔ p = .active ∨ p = .hold ∨ p = .faulted ∨ p = .sleeping ∨ p = .stopping := by
  cases p <;> decide

theorem shows_dark_iff : p.shows .dark = true ↔ p = .off ∨ p = .starting ∨ p = .sleep ∨ p = .sleeping := by
  cases p <;> decide

end

theorem shows_of_modeConsistent {s : State} (h : s.ModeConsistent) : s.mode.part.shows s.mode.panel = true := by
  cases hp : s.mode.panel with
  | rising => exact shows_rising_iff.2 (h.rising hp)
  | falling => exact shows_falling_iff.2 (h.falling hp)
  | lit => exact shows_lit_iff.2 (h.lit hp)
  | dark => exact shows_dark_iff.2 (h.dark hp)

theorem scanAgrees_of_modeConsistent {s : State} (h : s.ModeConsistent) :
    ScanAgrees s.mode.part s.mode.panel s.mode.haltSent s.scan.mode s.mail.scanOrders := by
  cases hhalt : s.mode.haltSent with
  | true =>
    obtain ⟨hpart, hpanel, before, horders, hbefore⟩ := h.halting hhalt
    exact .halting hpanel hpart rfl before horders hbefore
  | false =>
    by_cases hpanel : s.mode.panel = .lit
    · exact .lit hpanel rfl (h.halted hhalt)
    · obtain ⟨hscan, horders⟩ := h.unlit hpanel
      exact .unlit hpanel rfl hscan horders

/-- The invariant reads of a state its mode view alone. -/
theorem modeConsistent_iff (s : State) : s.ModeConsistent ↔ s.modeView.Consistent := by
  constructor
  · intro h
    exact ⟨shows_of_modeConsistent h, scanAgrees_of_modeConsistent h, h.endings, h.stopEnds, h.planning, h.startup,
      h.slot⟩
  · rintro ⟨hshows, hscan, endings, stopEnds, planning, startup, slot⟩
    have hpart : ∀ p, s.mode.panel = p → s.mode.part.shows p = true := fun p hp => hp ▸ hshows
    refine ⟨fun hp => shows_rising_iff.1 (hpart _ hp), fun hp => shows_falling_iff.1 (hpart _ hp),
      fun hp => shows_lit_iff.1 (hpart _ hp), fun hp => shows_dark_iff.1 (hpart _ hp), fun hp => ?_, fun hh => ?_,
      fun hh => ?_, endings, stopEnds, planning, startup, slot⟩
    · cases hscan with
      | unlit _ _ hstill horders => exact ⟨hstill, horders⟩
      | lit hpanel | halting hpanel => exact absurd hpanel hp
    · cases hscan with
      | unlit _ hhalt | lit _ hhalt => exact absurd (hhalt.symm.trans hh) nofun
      | halting hpanel hsleeping _ before horders hbefore => exact ⟨hsleeping, hpanel, before, horders, hbefore⟩
    · cases hscan with
      | unlit _ _ _ horders =>
        have horders : s.mail.scanOrders = [] := horders
        rw [horders]
        exact List.not_mem_nil
      | lit _ _ horders => exact horders
      | halting _ _ hhalt => exact absurd (hh.symm.trans hhalt) nofun

/-! ## Kinds of change that keep it -/

namespace ModeView

/-- No work is under way that belongs to one part state alone. -/
structure AtEase (v : ModeView) : Prop where
  endings : v.endings = false
  command : v.command ≠ .endings ∧ v.command ≠ .planRead
  startup : v.startup = .none

section

variable {v : ModeView} {p : PartState}

/-- With no work under way, panel, scan and command slot are all there is to agree. -/
theorem AtEase.consistent (h : v.AtEase) (hpanel : v.part.shows v.panel = true)
    (hscan : ScanAgrees v.part v.panel v.halting v.scan v.orders) (hslot : v.inHand = none ↔ v.command = .idle) :
    v.Consistent :=
  ⟨hpanel, hscan, fun he => absurd (h.endings.symm.trans he) nofun, fun hc => absurd hc h.command.1,
    fun hc => absurd hc h.command.2, fun hs => absurd h.startup hs, hslot⟩

namespace Consistent

/-- The panel up, or on its way, what may still be under way is a step of STARTING. -/
theorem atEase (h : v.Consistent) (hdark : v.panel ≠ .dark) : { v with startup := .none }.AtEase := by
  have hendings : v.endings = false := Bool.eq_false_iff.2 fun he => hdark (h.endings he).1
  refine ⟨hendings, ⟨fun hc => ?_, fun hc => ?_⟩, rfl⟩
  · exact absurd (hendings.symm.trans (h.stopEnds hc).2) nofun
  · have hshows := h.panel
    rw [h.planning hc] at hshows
    exact hdark (eq_of_beq hshows)

theorem startup_none (h : v.Consistent) (hpart : v.part ≠ .starting) : v.startup = .none :=
  not_not.1 fun hs => hpart (h.startup hs)

theorem startup_none_of_lit (h : v.Consistent) (hlit : v.panel = .lit) : v.startup = .none := by
  refine h.startup_none fun hp => ?_
  have hshows := h.panel
  rw [hp, hlit] at hshows
  cases hshows

/-- 07 R144: unless the panel is LIT the Scan Unit is STILL and has no order to come. -/
theorem unlit (h : v.Consistent) (hpanel : v.panel ≠ .lit) : v.halting = false ∧ v.scan = .still ∧ v.orders = [] := by
  cases h.scan with
  | unlit _ hhalt hscan horders => exact ⟨hhalt, hscan, horders⟩
  | lit hlit | halting hlit => exact absurd hlit hpanel

theorem no_halt_order (h : v.Consistent) (hhalt : v.halting = false) : .haltScanning ∉ v.orders := by
  cases h.scan with
  | unlit _ _ _ horders => rw [horders]; exact List.not_mem_nil
  | lit _ _ horders => exact horders
  | halting _ _ htrue => exact absurd (hhalt.symm.trans htrue) nofun

/-- Outside SLEEPING no halt order has been sent. -/
theorem halting_false (h : v.Consistent) (hpart : v.part ≠ .sleeping) : v.halting = false := by
  cases h.scan with
  | unlit _ hhalt | lit _ hhalt => exact hhalt
  | halting _ hsleeping => exact absurd hsleeping hpart

/-- A command in hand is answered (07 R132). -/
theorem answer (h : v.Consistent) (hcommand : v.command ≠ .idle) (r : CommandResult) :
    { v with command := .answered r }.Consistent :=
  ⟨h.panel, h.scan, h.endings, nofun, nofun, h.startup, ⟨fun hs => absurd (h.slot.1 hs) hcommand, nofun⟩⟩

/-- Under a LIT panel with no halt order sent, the part goes to a state for a LIT panel, orders being sent. -/
theorem enter (h : v.Consistent) (hlit : v.panel = .lit) (hhalt : v.halting = false) (hp : p.shows .lit = true)
    {sent : List ScanOrder} (hsent : .haltScanning ∉ sent) :
    { v with part := p, orders := v.orders ++ sent }.Consistent := by
  have hease := h.atEase (hlit ▸ nofun)
  refine AtEase.consistent ⟨hease.endings, hease.command, h.startup_none_of_lit hlit⟩ (hlit ▸ hp) ?_ h.slot
  exact .lit hlit hhalt fun hm => (List.mem_append.1 hm).elim (h.no_halt_order hhalt) hsent

/-- The same with no order sent. -/
theorem enterSilently (h : v.Consistent) (hlit : v.panel = .lit) (hhalt : v.halting = false)
    (hp : p.shows .lit = true) : { v with part := p }.Consistent := by
  have henter := h.enter hlit hhalt hp (sent := []) List.not_mem_nil
  rwa [List.append_nil] at henter

/-- The part state stands under a LIT panel alone. -/
theorem lit (h : v.Consistent) (hpart : v.part = .active ∨ v.part = .hold ∨ v.part = .faulted) : v.panel = .lit := by
  have hshows := h.panel
  rcases hpart with e | e | e <;> rw [e] at hshows <;> exact eq_of_beq hshows

/-- OFF and SLEEP stand under a DARK panel alone. -/
theorem dark (h : v.Consistent) (hpart : v.part = .off ∨ v.part = .sleep) : v.panel = .dark := by
  have hshows := h.panel
  rcases hpart with e | e <;> rw [e] at hshows <;> exact eq_of_beq hshows

/-- 04 R80: the Scan Unit takes an order other than that to halt, and has what mode it then has. -/
theorem takeOrder (h : v.Consistent) {o : ScanOrder} {rest : List ScanOrder} (horders : v.orders = o :: rest)
    (ho : o ≠ .haltScanning) (m : ScanMode) : { v with scan := m, orders := rest }.Consistent := by
  refine ⟨h.panel, ?_, h.endings, h.stopEnds, h.planning, h.startup, h.slot⟩
  cases h.scan with
  | unlit _ _ _ hnil => exact absurd (hnil.symm.trans horders) nofun
  | lit hlit hhalt hno => exact .lit hlit hhalt fun hm => hno (horders ▸ List.mem_cons_of_mem o hm)
  | halting hlit hpart hhalt before hbefore hno =>
    cases before with
    | nil => exact absurd (List.cons.inj (horders.symm.trans hbefore)).1 ho
    | cons o' before =>
      have hrest := (List.cons.inj (horders.symm.trans hbefore)).2
      exact .halting hlit hpart hhalt before hrest fun hm => hno (List.mem_cons_of_mem o' hm)

/-- 07 R137, log 17: a halt order under way is that of SLEEPING, and the last. -/
theorem takeHalt (h : v.Consistent) {rest : List ScanOrder} (horders : v.orders = .haltScanning :: rest) :
    v.halting = true ∧ v.part = .sleeping ∧ v.panel = .lit ∧ rest = [] := by
  cases h.scan with
  | unlit _ _ _ hnil => exact absurd (hnil.symm.trans horders) nofun
  | lit _ _ hno => exact absurd (horders ▸ List.mem_cons_self) hno
  | halting hlit hpart hhalt before hbefore hno =>
    cases before with
    | nil => exact ⟨hhalt, hpart, hlit, (List.cons.inj (horders.symm.trans hbefore)).2⟩
    | cons o' before =>
      have ho' := (List.cons.inj (horders.symm.trans hbefore)).1
      exact absurd (ho' ▸ List.mem_cons_self) hno

/-- 04 R79: the Scan Unit may come to STILL at any time. -/
theorem still (h : v.Consistent) : { v with scan := .still }.Consistent := by
  refine ⟨h.panel, ?_, h.endings, h.stopEnds, h.planning, h.startup, h.slot⟩
  cases h.scan with
  | unlit hpanel hhalt _ horders => exact .unlit hpanel hhalt rfl horders
  | lit hlit hhalt hno => exact .lit hlit hhalt hno
  | halting hlit hpart hhalt before hbefore hno => exact .halting hlit hpart hhalt before hbefore hno

end Consistent

end

end ModeView

end Sys2Proof.Machine
end

section
/-! PROOFS. The commands that change part state, panel, Scan Unit or command slot (Chapter 7, 04 R80, 09 R160), one by
one, and the invariant of every step. -/

namespace Sys2Proof.Machine

/-! ## What a step of the Mode Controller keeps -/

/-- What Chapter 7 asks of a step: the invariant is kept, the part state stays or changes as R129 to R143 give, and
the entry to STOPPING clears fault held (R142). -/
structure State.ModeStep (s t : State) : Prop where
  consistent : s.modeView.Consistent → t.modeView.Consistent
  part       : s.modeView.Consistent → t.mode.part = s.mode.part ∨ s.mode.part.leadsTo t.mode.part = true
  cleared    : s.mode.part ≠ .stopping → t.mode.part = .stopping → t.mode.faultHeld = false

section

variable {s t u : State} {p : PartState}

/-- The part state stays. -/
theorem State.ModeStep.of_part (hpart : t.mode.part = s.mode.part)
    (h : s.modeView.Consistent → t.modeView.Consistent) : s.ModeStep t :=
  ⟨h, fun _ => .inl hpart, fun hs ht => absurd (hpart.symm.trans ht) hs⟩

theorem State.ModeStep.of_view (h : t.modeView = s.modeView) : s.ModeStep t :=
  .of_part (congrArg ModeView.part h) fun hs => h ▸ hs

/-- The part state changes, but not to STOPPING. -/
theorem State.ModeStep.of_leads (hstop : t.mode.part ≠ .stopping)
    (h : s.modeView.Consistent → t.modeView.Consistent ∧ s.mode.part.leadsTo t.mode.part = true) : s.ModeStep t :=
  ⟨fun hs => (h hs).1, fun hs => .inr (h hs).2, fun _ ht => absurd ht hstop⟩

theorem modeStep_ite {a b : State} {q : Prop} [Decidable q] (ha : q → s.ModeStep a) (hb : ¬q → s.ModeStep b) :
    s.ModeStep (if q then a else b) := by
  split
  · exact ha ‹_›
  · exact hb ‹_›

/-- A step after one that kept the part state. -/
theorem State.ModeStep.after (h : u.ModeStep t) (hpart : u.mode.part = s.mode.part)
    (hu : s.modeView.Consistent → u.modeView.Consistent) : s.ModeStep t :=
  ⟨h.consistent ∘ hu, fun hs => hpart ▸ h.part (hu hs), fun hs => h.cleared (hpart ▸ hs)⟩

/-- After the step the command in hand is answered. -/
theorem State.ModeStep.answer (h : s.ModeStep t) (hcommand : s.mode.command ≠ .idle) (r : CommandResult)
    (hkept : t.mode.command = s.mode.command := by rfl) : s.ModeStep (t.giveResult r) :=
  ⟨fun hs => (h.consistent hs).answer (hkept ▸ hcommand : t.mode.command ≠ .idle) r, h.part, h.cleared⟩

/-- The command in hand is answered, and nothing else of the view changes. -/
theorem modeStep_answerOnly (hcommand : s.mode.command ≠ .idle) (r : CommandResult) (hview : t.modeView = s.modeView) :
    s.ModeStep (t.giveResult r) :=
  (State.ModeStep.of_view hview).answer hcommand r (congrArg ModeView.command hview)

/-- Under a LIT panel with no halt order sent, the part goes to another state for a LIT panel, orders being sent. -/
theorem State.ModeStep.enter (p : PartState) (sent : List ScanOrder)
    (hview : t.modeView = { s.modeView with part := p, orders := s.modeView.orders ++ sent })
    (hready : s.modeView.Consistent → s.mode.panel = .lit ∧ s.mode.haltSent = false)
    (hleads : s.mode.part.leadsTo p = true) (hp : p.shows .lit = true := by rfl)
    (hsent : .haltScanning ∉ sent := by decide) (hheld : p = .stopping → t.mode.faultHeld = false := by nofun) :
    s.ModeStep t := by
  have hpart : t.mode.part = p := congrArg ModeView.part hview
  refine ⟨fun hs => ?_, fun _ => .inr (hpart ▸ hleads), fun _ ht => hheld (hpart.symm.trans ht)⟩
  obtain ⟨hlit, hhalt⟩ := hready hs
  exact hview ▸ hs.enter hlit hhalt hp hsent

/-- The same with no order sent. -/
theorem State.ModeStep.enterSilently (p : PartState) (hview : t.modeView = { s.modeView with part := p })
    (hready : s.modeView.Consistent → s.mode.panel = .lit ∧ s.mode.haltSent = false)
    (hleads : s.mode.part.leadsTo p = true) (hp : p.shows .lit = true := by rfl)
    (hheld : p = .stopping → t.mode.faultHeld = false := by nofun) : s.ModeStep t :=
  .enter p [] (hview.trans (by rw [List.append_nil])) hready hleads hp List.not_mem_nil hheld

/-- ACTIVE, HOLD and FAULTED stand under a LIT panel, and no halt order has been sent. -/
theorem ready_of_lit_part (hpart : s.mode.part = .active ∨ s.mode.part = .hold ∨ s.mode.part = .faulted)
    (h : s.modeView.Consistent) : s.mode.panel = .lit ∧ s.mode.haltSent = false := by
  refine ⟨h.lit hpart, h.halting_false fun hsleeping => ?_⟩
  have hsleeping : s.mode.part = .sleeping := hsleeping
  rcases hpart with e | e | e <;> exact absurd (e.symm.trans hsleeping) nofun

end

/-! ## The part commands (07 R132) -/

section

variable {s : State}

theorem busy_of_handed (hcommand : s.mode.command = .handed) : s.mode.command ≠ .idle := hcommand ▸ nofun

theorem modeStep_takeStart (hcommand : s.mode.command = .handed) : s.ModeStep s.takeStart := by
  have hbusy := busy_of_handed hcommand
  refine modeStep_ite (fun _ => modeStep_answerOnly hbusy _ rfl) fun hoff =>
    modeStep_ite (fun _ => modeStep_answerOnly hbusy _ rfl) fun _ =>
      modeStep_ite (fun _ => modeStep_answerOnly hbusy _ rfl) fun _ => .of_part rfl fun h => ?_
  exact ⟨h.panel, h.scan, h.endings, nofun, fun _ => not_not.1 hoff, h.startup,
    ⟨fun hs => absurd (h.slot.1 hs) hbusy, nofun⟩⟩

/-- 07 R139: from ACTIVE, HOLD and FAULTED, and from SLEEPING before its halt order. -/
theorem modeStep_enterStopping (hleads : s.mode.part.leadsTo .stopping = true)
    (hready : s.modeView.Consistent → s.mode.panel = .lit ∧ s.mode.haltSent = false) :
    s.ModeStep s.enterStopping :=
  .enterSilently .stopping rfl hready hleads (hheld := fun _ => rfl)

theorem modeStep_enterFaulted (hleads : s.mode.part.leadsTo .faulted = true)
    (hready : s.modeView.Consistent → s.mode.panel = .lit ∧ s.mode.haltSent = false) : s.ModeStep s.enterFaulted :=
  .enterSilently .faulted rfl hready hleads

theorem modeStep_takeStop (hcommand : s.mode.command = .handed) : s.ModeStep s.takeStop := by
  have hbusy := busy_of_handed hcommand
  have hstop (hleads : s.mode.part.leadsTo .stopping = true)
      (hpart : s.mode.part = .active ∨ s.mode.part = .hold ∨ s.mode.part = .faulted) :
      s.ModeStep (s.enterStopping.giveResult .ok) :=
    (modeStep_enterStopping hleads (ready_of_lit_part hpart)).answer hbusy _
  unfold State.takeStop
  cases hp : s.mode.part with
  | off | stopping | starting | sleeping | waking => exact modeStep_answerOnly hbusy _ rfl
  | active => exact hstop (hp ▸ rfl) (.inl hp)
  | hold => exact hstop (hp ▸ rfl) (.inr (.inl hp))
  | faulted => exact hstop (hp ▸ rfl) (.inr (.inr hp))
  | sleep =>
    exact .of_part rfl fun h => ⟨h.panel, h.scan, fun _ => ⟨h.dark (.inr hp), .inl hp⟩, fun _ => ⟨hp, rfl⟩, nofun,
      h.startup, ⟨fun hs => absurd (h.slot.1 hs) hbusy, nofun⟩⟩

theorem modeStep_takeSleep (hcommand : s.mode.command = .handed) : s.ModeStep s.takeSleep := by
  have hbusy := busy_of_handed hcommand
  unfold State.takeSleep
  cases hp : s.mode.part with
  | active =>
    exact State.ModeStep.answer
      (.enterSilently .sleeping rfl (ready_of_lit_part (.inl hp)) (hp ▸ rfl)) hbusy _
  | hold =>
    exact State.ModeStep.answer
      (.enter .sleeping [.frameCadence] rfl (ready_of_lit_part (.inr (.inl hp))) (hp ▸ rfl)) hbusy _
  | off | starting | sleeping | sleep | waking | stopping | faulted => exact modeStep_answerOnly hbusy _ rfl

/-- 07 R136: the part returns to ACTIVE from HOLD. -/
theorem modeStep_returnToActive (hp : s.mode.part = .hold) : s.ModeStep s.returnToActive :=
  .enter .active [.frameCadence] rfl (ready_of_lit_part (.inr (.inl hp))) (hp ▸ rfl)

/-- 07 R138: the ramp up of WAKING begins. -/
theorem modeStep_wake (hcommand : s.mode.command = .handed) (hendings : s.mode.endingsAwaited = false)
    (hp : s.mode.part = .sleep) : s.ModeStep (s.setMode { s.mode with part := .waking }).rampUp := by
  refine .of_leads nofun fun h => ⟨?_, hp ▸ rfl⟩
  have hpart : s.modeView.part = .sleep := hp
  obtain ⟨hhalt, hstill, horders⟩ := h.unlit (h.dark (.inr hp) ▸ nofun)
  refine ModeView.AtEase.consistent ⟨hendings, ?_, h.startup_none (hpart ▸ nofun)⟩ rfl
    (.unlit nofun hhalt hstill horders) h.slot
  exact ⟨fun he => absurd (hcommand.symm.trans he) nofun, fun he => absurd (hcommand.symm.trans he) nofun⟩

theorem modeStep_takeWake (hcommand : s.mode.command = .handed) (hendings : s.mode.endingsAwaited = false) :
    s.ModeStep s.takeWake := by
  have hbusy := busy_of_handed hcommand
  unfold State.takeWake
  cases hp : s.mode.part with
  | hold =>
    have h := modeStep_returnToActive hp
    exact State.ModeStep.answer (t := s.returnToActive.askFlag .done) ⟨h.consistent, h.part, h.cleared⟩ hbusy _
  | sleep => exact (modeStep_wake hcommand hendings hp).answer hbusy _
  | off | starting | active | sleeping | waking | stopping | faulted => exact modeStep_answerOnly hbusy _ rfl

theorem modeStep_takeHanded (c : PartCommand) : s.ModeStep (s.takeHanded c) := by
  refine modeStep_ite (fun ⟨hcommand, _, hendings⟩ => ?_) fun _ => .of_view rfl
  cases c with
  | start => exact modeStep_takeStart hcommand
  | stop => exact modeStep_takeStop hcommand
  | sleep => exact modeStep_takeSleep hcommand
  | wake => exact modeStep_takeWake hcommand hendings

/-- 09 R160: a command that arrives at an empty slot is in hand, and handed over. -/
theorem modeStep_commandArrives (c : PartCommand) : s.ModeStep (s.commandArrives c) := by
  unfold State.commandArrives
  split
  · exact (modeStep_takeHanded c).after rfl fun h =>
      ⟨h.panel, h.scan, h.endings, nofun, nofun, h.startup, ⟨nofun, nofun⟩⟩
  all_goals exact .of_view rfl

theorem modeStep_command (c : PartCommand) (source : CmdSource) : s.ModeStep (s.command c source) := by
  cases source with
  | handedOver => exact modeStep_takeHanded c
  | write enables => exact modeStep_ite (fun _ => .of_view rfl) fun _ => (modeStep_commandArrives c).after rfl id

theorem modeStep_execCommandResult {t : State} (e : execCommandResult s = .next t) : s.ModeStep t := by
  obtain rfl := Host.Outcome.next.inj e
  split
  · split
    · exact .of_part rfl fun h => ⟨h.panel, h.scan, h.endings, nofun, nofun, h.startup, ⟨nofun, nofun⟩⟩
    · exact .of_part rfl fun h =>
        ⟨h.panel, h.scan, h.endings, nofun, nofun, h.startup, ⟨fun _ => rfl, fun _ => rfl⟩⟩
  · exact .of_view rfl

/-! ## STARTING (07 R129 to R131) -/

/-- 07 R131, step 1. -/
theorem modeStep_acceptPlan (hcommand : s.mode.command = .planRead) (p : Plan) : s.ModeStep (s.acceptPlan p) := by
  have hreads : s.modeView.Consistent → s.mode.part = .off := fun h => h.planning hcommand
  refine .of_leads nofun fun h => ⟨?_, hreads h ▸ rfl⟩
  have hpart : s.modeView.part = .off := hreads h
  have hdark := h.dark (.inl hpart)
  obtain ⟨hhalt, hstill, horders⟩ := h.unlit (hdark ▸ nofun)
  have hshows : PartState.starting.shows s.modeView.panel = true := hdark ▸ rfl
  refine ⟨hshows, .unlit (hdark ▸ nofun) hhalt hstill horders, fun he => ?_, nofun, nofun, fun _ => rfl,
    ⟨fun hs => ?_, nofun⟩⟩
  · rcases (h.endings he).2 with hs | hs <;> exact absurd (hpart.symm.trans hs) nofun
  · exact absurd (hcommand.symm.trans (h.slot.1 hs)) nofun

theorem modeStep_execPlanRead {bus : BusEvent} {t : State} (e : execPlanRead bus s = .next t) : s.ModeStep t := by
  obtain rfl := Host.Outcome.next.inj e
  split
  · rename_i hcommand
    have hbusy : s.mode.command ≠ .idle := hcommand ▸ nofun
    have hinvalid : s.ModeStep ((s.busRead bus).giveResult .planInvalid) :=
      modeStep_answerOnly hbusy _ rfl
    dsimp only
    split
    · exact hinvalid
    · split
      · exact hinvalid
      · exact (modeStep_acceptPlan (s := s.busRead bus) hcommand _).after rfl id
  · exact .of_view rfl

/-- 07 R131: STARTING goes on from a step to the next. -/
theorem ModeView.Consistent.startupStep {v : ModeView} (h : v.Consistent) (hstep : v.startup ≠ .none)
    (step : StartupStep) : { v with startup := step }.Consistent :=
  ⟨h.panel, h.scan, h.endings, h.stopEnds, h.planning, fun _ => h.startup hstep, h.slot⟩

theorem modeStep_execStartingLineFill {t : State} (e : execStartingLineFill s = .next t) : s.ModeStep t := by
  obtain rfl := Host.Outcome.next.inj e
  split
  · rename_i hstep
    exact .of_part rfl fun h => h.startupStep (hstep ▸ nofun : s.mode.startup ≠ .none) _
  · exact .of_view rfl

theorem modeStep_execWholeLineWrite {writer : LineWriter} {t : State} (e : execWholeLineWrite writer s = .next t) :
    s.ModeStep t := by
  obtain rfl := Host.Outcome.next.inj e
  split
  · split <;> exact .of_view rfl
  · split
    · rename_i hstep
      exact .of_part rfl fun h => h.startupStep (hstep ▸ nofun : s.mode.startup ≠ .none) _
    · exact .of_view rfl

/-- 07 R131, step 4: the ramp up of STARTING begins. -/
theorem modeStep_execSetupComplete {t : State} (e : execSetupComplete s = .next t) : s.ModeStep t := by
  obtain rfl := Host.Outcome.next.inj e
  refine modeStep_ite (fun ⟨_, hstep⟩ => .of_part rfl fun h => ?_) fun _ => .of_view rfl
  have hpart : s.modeView.part = .starting := h.startup (hstep ▸ nofun : s.mode.startup ≠ .none)
  have hunlit : s.modeView.panel ≠ .lit := fun hlit => by
    have hshows := h.panel
    rw [hpart, hlit] at hshows
    cases hshows
  obtain ⟨hhalt, hstill, horders⟩ := h.unlit hunlit
  have hshows : s.modeView.part.shows .rising = true := hpart ▸ rfl
  refine ⟨hshows, .unlit nofun hhalt hstill horders, fun he => ?_, h.stopEnds, h.planning, fun _ => hpart, h.slot⟩
  rcases (h.endings he).2 with hs | hs <;> exact absurd (hpart.symm.trans hs) nofun

/-! ## The ends of the ramps (07 R144) -/

/-- 07 R131 step 5, R138: the panel is LIT, and the part in a state for it; the scan is told what to do. -/
theorem ModeView.Consistent.riseTo {v : ModeView} (h : v.Consistent) (hrising : v.panel = .rising) {p : PartState}
    (hp : p.shows .lit = true) {sent : List ScanOrder} (hsent : .haltScanning ∉ sent) :
    { v with part := p, panel := .lit, startup := .none, orders := v.orders ++ sent }.Consistent := by
  obtain ⟨hhalt, -, horders⟩ := h.unlit (hrising ▸ nofun)
  have hease := h.atEase (hrising ▸ nofun)
  refine AtEase.consistent ⟨hease.endings, hease.command, rfl⟩ hp (.lit rfl hhalt ?_) h.slot
  rwa [horders, List.nil_append]

theorem beginOrder_ne_halt (p : PartState) : .haltScanning ∉ [p.beginOrder] := by cases p <;> decide

theorem modeStep_execRampUpEnd {moment : Nat} {t : State} (e : execRampUpEnd moment s = .next t) : s.ModeStep t := by
  obtain rfl := Host.Outcome.next.inj e
  refine modeStep_ite (fun ⟨hrising, _⟩ => ?_) fun _ => .of_view rfl
  have hleads (h : s.modeView.Consistent) (p : PartState)
      (hp : p = .active ∨ p = .faulted ∨ p = .stopping) : s.mode.part.leadsTo p = true := by
    have hshows : s.mode.part.shows .rising = true := hrising ▸ h.panel
    rcases shows_rising_iff.1 hshows with hs | hs <;> rcases hp with rfl | rfl | rfl <;> rw [hs] <;> rfl
  refine modeStep_ite (fun _ => ?_) fun _ => modeStep_ite (fun _ => ?_) fun _ => ?_
  · refine ⟨fun h => ?_, fun h => .inr (hleads h _ (.inr (.inr rfl))), fun _ _ => rfl⟩
    have hrise := h.riseTo hrising (p := .stopping) rfl (sent := []) List.not_mem_nil
    rwa [List.append_nil] at hrise
  · exact .of_leads nofun fun h =>
      ⟨h.riseTo hrising (p := .faulted) rfl (beginOrder_ne_halt _), hleads h _ (.inr (.inl rfl))⟩
  · exact .of_leads nofun fun h =>
      ⟨h.riseTo hrising (p := .active) rfl (beginOrder_ne_halt _), hleads h _ (.inl rfl)⟩

/-- 07 R137, R140: the panel is DARK, and the part in SLEEP or OFF. -/
theorem ModeView.Consistent.fallTo {v : ModeView} (h : v.Consistent) (hfalling : v.panel = .falling) {p : PartState}
    (hp : p.shows .dark = true) : { v with part := p, panel := .dark }.Consistent := by
  obtain ⟨hhalt, hstill, horders⟩ := h.unlit (hfalling ▸ nofun)
  have hease := h.atEase (hfalling ▸ nofun)
  have hshows : v.part.shows .falling = true := hfalling ▸ h.panel
  have hstarting : v.part ≠ .starting := by
    rcases shows_falling_iff.1 hshows with hs | hs <;> rw [hs] <;> exact nofun
  exact AtEase.consistent ⟨hease.endings, hease.command, h.startup_none hstarting⟩ hp
    (.unlit nofun hhalt hstill horders) h.slot

theorem modeStep_execRampDownEnd {moment : Nat} {t : State} (e : execRampDownEnd moment s = .next t) :
    s.ModeStep t := by
  obtain rfl := Host.Outcome.next.inj e
  refine modeStep_ite (fun ⟨hfalling, _⟩ => ?_) fun _ => .of_view rfl
  refine modeStep_ite (fun hsleeping => modeStep_ite (fun _ => ?_) fun _ => ?_) fun hawake => ?_
  · refine .of_part rfl fun h => ?_
    have hsleeping : s.modeView.part = .sleeping := hsleeping
    have hdark := h.fallTo hfalling (p := s.modeView.part) (hsleeping ▸ rfl)
    have hfalling : s.modeView.panel = .falling := hfalling
    have hease := h.atEase (hfalling ▸ nofun)
    exact ⟨hdark.panel, hdark.scan, fun _ => ⟨rfl, .inr hsleeping⟩, fun hc => absurd hc hease.command.1,
      hdark.planning, hdark.startup, hdark.slot⟩
  · exact .of_leads nofun fun h =>
      ⟨h.fallTo hfalling (p := .sleep) rfl, (show s.mode.part = .sleeping from hsleeping) ▸ rfl⟩
  · refine .of_leads nofun fun h => ⟨h.fallTo hfalling (p := .off) rfl, ?_⟩
    have hshows : s.mode.part.shows .falling = true := hfalling ▸ h.panel
    have hstopping : s.mode.part = .stopping := (shows_falling_iff.1 hshows).resolve_left hawake
    exact hstopping ▸ rfl

/-! ## The waits of SLEEPING and STOPPING (07 R137, R139 to R141) -/

theorem modeStep_execSleepingQuiesced {t : State} (e : execSleepingQuiesced s = .next t) : s.ModeStep t := by
  obtain rfl := Host.Outcome.next.inj e
  refine modeStep_ite (fun ⟨hpart, hlit, hhalt, _⟩ => .of_part rfl fun h => ?_) fun _ => .of_view rfl
  exact ⟨h.panel, .halting hlit hpart rfl _ rfl (h.no_halt_order hhalt), h.endings, h.stopEnds, h.planning, h.startup,
    h.slot⟩

theorem modeStep_execStoppingEngineIdle {t : State} (e : execStoppingEngineIdle s = .next t) : s.ModeStep t := by
  obtain rfl := Host.Outcome.next.inj e
  refine modeStep_ite (fun ⟨hpart, hlit, _⟩ => .of_part rfl fun h => ?_) fun _ => .of_view rfl
  have hpart : s.modeView.part = .stopping := hpart
  exact h.enter hlit (h.halting_false (hpart ▸ nofun)) (p := s.modeView.part) (hpart ▸ rfl) (by decide)

/-- 07 R140: the ramp down of STOPPING begins with the Scan Unit STILL and no order to it under way. -/
theorem modeStep_execStoppingComplete {t : State} (e : execStoppingComplete s = .next t) : s.ModeStep t := by
  obtain rfl := Host.Outcome.next.inj e
  refine modeStep_ite (fun ⟨hpart, hlit, hstill, horders, _⟩ => .of_part rfl fun h => ?_) fun _ => .of_view rfl
  have hpart : s.modeView.part = .stopping := hpart
  have hlit : s.modeView.panel = .lit := hlit
  have hease := h.atEase (hlit ▸ nofun)
  have hshows : s.modeView.part.shows .falling = true := hpart ▸ rfl
  exact ModeView.AtEase.consistent ⟨hease.endings, hease.command, h.startup_none_of_lit hlit⟩ hshows
    (.unlit nofun (h.halting_false (hpart ▸ nofun)) hstill horders) h.slot

/-- 07 R141, step 4. -/
theorem modeStep_execSleepStopEndingsDone {t : State} (e : execSleepStopEndingsDone s = .next t) : s.ModeStep t := by
  obtain rfl := Host.Outcome.next.inj ((execSleepStopEndingsDone_eq s).symm.trans e)
  refine modeStep_ite (fun ⟨hendings, _⟩ => .of_leads nofun fun h => ?_) fun _ => .of_view rfl
  obtain ⟨hdark, hpart⟩ := h.endings hendings
  have hpart : s.mode.part = .sleep ∨ s.mode.part = .sleeping := hpart
  obtain ⟨hhalt, hstill, horders⟩ := h.unlit (hdark ▸ nofun)
  have hshows : PartState.off.shows s.modeView.panel = true := hdark ▸ rfl
  have hstarting : s.modeView.part ≠ .starting := by
    rcases hpart with hs | hs <;> exact fun hc => absurd (hs.symm.trans hc) nofun
  have hplan : s.mode.command ≠ .planRead := fun hc => by
    rcases hpart with hs | hs <;> exact absurd (hs.symm.trans (h.planning hc)) nofun
  refine ⟨ModeView.AtEase.consistent ⟨rfl, ?_, h.startup_none hstarting⟩ hshows
    (.unlit (hdark ▸ nofun) hhalt hstill horders) ?_, ?_⟩
  · show (if s.mode.command = .endings then CommandPhase.answered .ok else s.mode.command) ≠ .endings ∧
      (if s.mode.command = .endings then CommandPhase.answered .ok else s.mode.command) ≠ .planRead
    split
    · exact ⟨nofun, nofun⟩
    · exact ⟨‹_›, hplan⟩
  · show s.port.inHand = none ↔
      (if s.mode.command = .endings then CommandPhase.answered .ok else s.mode.command) = .idle
    split
    · rename_i hc
      exact ⟨fun hs => absurd (hc.symm.trans (h.slot.1 hs)) nofun, nofun⟩
    · exact h.slot
  · rcases hpart with hs | hs <;> rw [hs] <;> rfl

/-! ## Boundaries and fault reports (07 R134 to R136, R142) -/

theorem modeStep_execBoundaryEvaluation {t : State} (e : execBoundaryEvaluation s = .next t) : s.ModeStep t := by
  obtain rfl := Host.Outcome.next.inj e
  split
  · dsimp only
    split
    · rename_i hp
      exact modeStep_ite (fun _ => .enter .hold [.heldCadence] rfl (ready_of_lit_part (.inl hp)) (hp ▸ rfl))
        fun _ => .of_view rfl
    · rename_i hp
      refine modeStep_ite (fun _ => .of_view rfl) fun _ => (modeStep_returnToActive ?_).after rfl id
      exact hp
    all_goals exact .of_view rfl
  · exact .of_view rfl

theorem modeStep_faultReport : s.ModeStep s.faultReport := by
  unfold State.faultReport
  cases hp : s.mode.part with
  | active => exact modeStep_enterFaulted (hp ▸ rfl) (ready_of_lit_part (.inl hp))
  | hold => exact .enter .faulted [.frameCadence] rfl (ready_of_lit_part (.inr (.inl hp))) (hp ▸ rfl)
  | sleeping =>
    refine modeStep_ite (fun hready => modeStep_ite (fun _ => ?_) fun _ => ?_) fun _ => .of_view rfl
    · exact modeStep_enterStopping (hp ▸ rfl) fun _ => hready
    · exact modeStep_enterFaulted (hp ▸ rfl) fun _ => hready
  | off | starting | sleep | waking | stopping | faulted => exact .of_view rfl

theorem modeStep_execDamageLimitReport {t : State} (e : execDamageLimitReport s = .next t) : s.ModeStep t := by
  obtain rfl := Host.Outcome.next.inj e
  split
  · exact .of_view rfl
  · exact modeStep_faultReport.after rfl id

theorem modeStep_execRecorderFailureReport {t : State} (e : execRecorderFailureReport s = .next t) :
    s.ModeStep t := by
  obtain rfl := Host.Outcome.next.inj e
  split
  · exact .of_view rfl
  · exact modeStep_faultReport.after rfl id

/-! ## The Scan Unit (04 R79, R80) -/

/-- An order but that to halt is taken. -/
theorem modeStep_takeOrder {t : State} {o : ScanOrder} {rest : List ScanOrder} (horders : s.mail.scanOrders = o :: rest)
    (ho : o ≠ .haltScanning) (m : ScanMode) (hview : t.modeView = { s.modeView with scan := m, orders := rest }) :
    s.ModeStep t :=
  .of_part (congrArg ModeView.part hview) fun h => hview ▸ h.takeOrder horders ho m

/-- Taken or not, an order but that to halt makes such a step. -/
theorem modeStep_scanOrder {o : ScanOrder} {t : State} (ho : o ≠ .haltScanning) (e : exec o.instr s = .next t) :
    s.ModeStep t := by
  by_cases hhead : s.mail.scanOrders.head? = some o
  · obtain ⟨rest, horders⟩ := List.head?_eq_some_iff.1 hhead
    cases o with
    | begin | beginBlank =>
      obtain rfl := Host.Outcome.next.inj ((exec_begin (by decide) horders).symm.trans e)
      exact modeStep_ite (fun _ => modeStep_takeOrder horders ho .frame rfl)
        fun _ => modeStep_takeOrder horders ho s.scan.mode rfl
    | frameCadence =>
      obtain rfl := Host.Outcome.next.inj ((execFrameCadence_eq horders).symm.trans e)
      exact modeStep_takeOrder horders ho _ rfl
    | heldCadence =>
      obtain rfl := Host.Outcome.next.inj ((execHeldCadence_eq horders).symm.trans e)
      exact modeStep_takeOrder horders ho _ rfl
    | finish =>
      obtain rfl := Host.Outcome.next.inj ((execFinishOrder_eq horders).symm.trans e)
      exact modeStep_takeOrder horders ho _ rfl
    | haltScanning => exact absurd rfl ho
  · obtain rfl := Host.Outcome.next.inj ((exec_order_waits hhead).symm.trans e)
    exact .of_view rfl

theorem view_haltScan (s : State) : s.haltScan.modeView = { s.modeView with scan := .still } := by
  unfold State.haltScan
  split
  · rename_i hstill
    exact congrArg (fun m => { s.modeView with scan := m }) hstill
  · rfl

theorem view_haltTaken (s : State) :
    s.haltTaken.modeView =
      { s.modeView with panel := if s.modeView.halting then .falling else s.modeView.panel, halting := false } := by
  have hif : s.modeView.halting = s.mode.haltSent := rfl
  rw [hif, State.haltTaken]
  cases hhalt : s.mode.haltSent with
  | true => rfl
  | false => exact congrArg (fun b => { s.modeView with halting := b }) hhalt

/-- 07 R137, log 17: the Scan Unit is STILL, its last order taken, and the ramp down of SLEEPING begins. -/
theorem modeStep_haltTaken {rest : List ScanOrder} (horders : s.mail.scanOrders = .haltScanning :: rest) :
    s.ModeStep (s.orderTaken rest).haltScan.haltTaken := by
  have hview := view_haltTaken (s.orderTaken rest).haltScan
  rw [view_haltScan] at hview
  refine .of_part (congrArg ModeView.part hview) fun h => ?_
  obtain ⟨hhalt, hpart, hlit, rfl⟩ := h.takeHalt horders
  have hhalt' : (s.orderTaken []).modeView.halting = true := hhalt
  rw [if_pos hhalt'] at hview
  have hease := h.atEase (hlit ▸ nofun)
  have hshows : s.modeView.part.shows .falling = true := hpart ▸ rfl
  rw [hview]
  exact ModeView.AtEase.consistent ⟨hease.endings, hease.command, h.startup_none_of_lit hlit⟩ hshows
    (.unlit nofun rfl rfl rfl) h.slot

theorem modeStep_execHaltScanning {t : State} (e : execHaltScanning s = .next t) : s.ModeStep t := by
  obtain rfl := Host.Outcome.next.inj e
  split
  · exact modeStep_haltTaken ‹_›
  · exact .of_view rfl

theorem view_reportRowDamage (s : State) (row : Nat) : (s.reportRowDamage row).modeView = s.modeView := by
  unfold State.reportRowDamage
  split <;> rfl

/-- 04 R79, R80: after a row the scan goes on, or comes to STILL. -/
theorem view_afterRow (s : State) (row : Nat) :
    (s.afterRow row).modeView = s.modeView ∨ (s.afterRow row).modeView = { s.modeView with scan := .still } := by
  have hraise : s.raiseBoundary.modeView =
      { s.modeView with scan := if s.scan.finishPending then .still else s.scan.mode } := rfl
  unfold State.afterRow
  split
  · exact .inl rfl
  · split
    · exact .inl rfl
    · rw [hraise]
      split
      · exact .inr rfl
      · exact .inl rfl

theorem modeStep_execRowOutput {moment : Nat} {t : State} (e : execRowOutput moment s = .next t) : s.ModeStep t := by
  obtain rfl := Host.Outcome.next.inj e
  split
  · refine modeStep_ite (fun _ => ?_) fun _ => .of_view rfl
    rcases view_afterRow (State.reportRowDamage _ _) _ with hview | hview <;> rw [view_reportRowDamage] at hview
    · exact .of_view hview
    · exact .of_part (congrArg ModeView.part hview) fun h => hview ▸ h.still
  · exact .of_view rfl

/-! ## Every command -/

/-- The view at reset. -/
theorem reset_view_consistent : State.reset.modeView.Consistent := (modeConsistent_iff _).1 reset_modeConsistent

/-- Every command but a reset makes a step that Chapter 7 gives; a reset that is not ignored brings the reset values. -/
theorem exec_modeStep {c : Instr} {t : State} (e : exec c s = .next t) :
    s.ModeStep t ∨ c.isReset = true ∧ t.modeView = State.reset.modeView := by
  cases hc : reachesView c with
  | false => exact .inl (.of_view ((exec_leavesView s c hc).view e))
  | true =>
    cases c with
    | powerOnReset _ | resetPinAsserted _ =>
      obtain rfl := Host.Outcome.next.inj e
      exact .inr ⟨rfl, rfl⟩
    | reset _ =>
      obtain rfl := Host.Outcome.next.inj e
      split
      · exact .inl (.of_view rfl)
      · exact .inr ⟨rfl, rfl⟩
    | enableWrite value =>
      obtain rfl := Host.Outcome.next.inj e
      split
      · exact .inl (.of_view rfl)
      · split
        · exact .inr ⟨beq_iff_eq.2 ‹_›, rfl⟩
        · refine .inl ?_
          split
          · exact (modeStep_commandArrives _).after rfl id
          · exact .of_view rfl
    | start _ | stop _ | sleep _ | wake _ => exact .inl (Host.Outcome.next.inj e ▸ modeStep_command _ _)
    | planRead bus => exact .inl (modeStep_execPlanRead e)
    | startingLineFill => exact .inl (modeStep_execStartingLineFill e)
    | setupComplete => exact .inl (modeStep_execSetupComplete e)
    | rampUpEnd moment => exact .inl (modeStep_execRampUpEnd e)
    | rampDownEnd moment => exact .inl (modeStep_execRampDownEnd e)
    | sleepingQuiesced => exact .inl (modeStep_execSleepingQuiesced e)
    | stoppingEngineIdle => exact .inl (modeStep_execStoppingEngineIdle e)
    | stoppingComplete => exact .inl (modeStep_execStoppingComplete e)
    | boundaryEvaluation => exact .inl (modeStep_execBoundaryEvaluation e)
    | damageLimitReport => exact .inl (modeStep_execDamageLimitReport e)
    | recorderFailureReport => exact .inl (modeStep_execRecorderFailureReport e)
    | rowOutput moment => exact .inl (modeStep_execRowOutput e)
    | beginOrder => exact .inl (modeStep_scanOrder (o := .begin) nofun e)
    | beginWithBlankFrame => exact .inl (modeStep_scanOrder (o := .beginBlank) nofun e)
    | frameCadence => exact .inl (modeStep_scanOrder (o := .frameCadence) nofun e)
    | heldCadence => exact .inl (modeStep_scanOrder (o := .heldCadence) nofun e)
    | finishOrder => exact .inl (modeStep_scanOrder (o := .finish) nofun e)
    | haltScanning => exact .inl (modeStep_execHaltScanning e)
    | wholeLineWrite writer => exact .inl (modeStep_execWholeLineWrite e)
    | commandResult => exact .inl (modeStep_execCommandResult e)
    | sleepStopEndingsDone => exact .inl (modeStep_execSleepStopEndingsDone e)
    | _ => cases hc

end

/-! ## The statements -/

/-- Settles O57: kept by every command, the front one on the queue's rest, and met by the reset values. -/
theorem stepKeepsThePartStateConsistent : Obligations.StepKeepsThePartStateConsistent := by
  intro s t h e
  rw [modeConsistent_iff] at h ⊢
  unfold step at e
  split at e
  · cases e
    exact h
  · rcases exec_modeStep e with hstep | ⟨-, hreset⟩
    · exact hstep.consistent h
    · exact hreset ▸ reset_view_consistent

/-- Settles O59: a step of Chapter 7, or a reset, which leads to OFF. -/
theorem partStateChangesAsChapter7Gives : Obligations.PartStateChangesAsChapter7Gives := by
  intro c s t h e
  rcases exec_modeStep e with hstep | ⟨hc, hreset⟩
  · exact (hstep.part ((modeConsistent_iff s).1 h)).imp id .inl
  · exact .inr (.inr ⟨hc, congrArg ModeView.part hreset⟩)

end Sys2Proof.Machine
end

section
/-! PROOFS. The part commands as the Mode Controller takes them (07 R129, R132, R136 to R141), the end of START's plan
read, the ends of the ramps, boundaries and fault reports (07 R134, R142). -/

namespace Sys2Proof.Machine

section

variable {s : State}

/-! ## The part commands (07 R132) -/

/-- A command that has been handed over is taken. -/
theorem exec_handedOver {c : PartCommand} (hcommand : s.mode.command = .handed) (hhand : s.port.inHand = some c)
    (hendings : s.mode.endingsAwaited = false) : exec (c.instr .handedOver) s = .next (s.takeCommand c) := by
  have htaken : exec (c.instr .handedOver) s = .next (s.takeHanded c) := by cases c <;> rfl
  rw [htaken, State.takeHanded, if_pos ⟨hcommand, hhand, hendings⟩]

/-- 07 R129: the damage count, the base by its value, and the plan read. -/
theorem takeStart_eq (s : State) :
    s.takeStart =
      { s with mode := { s.mode with command :=
          if s.mode.part ≠ .off then .answered .refusedState
          else if 16 < s.store.markedCount then .answered .refusedState
          else if s.port.exb = 0 ∨ s.port.exb.toNat % 64 ≠ 0 then .answered .refusedBase
          else .planRead } } := by
  have hbase : s.port.exb % 64 ≠ 0 ↔ s.port.exb.toNat % 64 ≠ 0 := by
    rw [not_iff_not, ← BitVec.toNat_inj]
    exact Iff.rfl
  refine (if_congr Iff.rfl rfl (if_congr Iff.rfl rfl (if_congr (or_congr_right hbase) rfl rfl))).trans ?_
  split
  · rfl
  · split
    · rfl
    · split <;> rfl

/-- Settles O8: each command once it is taken, by the part state. -/
theorem partCommandsAreTaken : Obligations.PartCommandsAreTaken := by
  refine ⟨fun s hcommand hhand hendings => ?_, fun s hcommand hhand hendings => ?_,
    fun s hcommand hendings => ⟨fun hhand => ?_, fun hhand => ?_⟩⟩
  · exact (exec_handedOver hcommand hhand hendings).trans (congrArg Host.Outcome.next (takeStart_eq s))
  · refine (exec_handedOver hcommand hhand hendings).trans (congrArg Host.Outcome.next ?_)
    show s.takeStop = _
    unfold State.takeStop
    cases s.mode.part <;> rfl
  · refine (exec_handedOver hcommand hhand hendings).trans (congrArg Host.Outcome.next ?_)
    show s.takeSleep = _
    unfold State.takeSleep
    cases s.mode.part <;> rfl
  · refine (exec_handedOver hcommand hhand hendings).trans (congrArg Host.Outcome.next ?_)
    show s.takeWake = _
    unfold State.takeWake
    cases s.mode.part <;> rfl

/-! ## The end of the plan read (07 R129, R131) -/

/-- Settles O10, by whether a plan read is outstanding, how it ended and what it read. -/
theorem planReadEndsStart : Obligations.PlanReadEndsStart := by
  intro bus s
  refine ⟨fun h => ?_, fun h => ?_⟩
  · refine congrArg Host.Outcome.next ?_
    split
    · exact absurd ‹_› h
    · rfl
  · show execPlanRead bus s = _
    rw [execPlanRead, h, State.busData]
    cases bus.error with
    | some landed => rfl
    | none =>
      dsimp only
      cases planOf (Memory.readBytes (Memory.hostWrites s.mem bus.host) s.port.exb 64) <;> rfl

/-! ## The ends of the ramps (07 R144) -/

theorem execRampUpEnd_eq {moment : Nat} (hrising : s.mode.panel = .rising) (hdue : s.mode.rampEnd ≤ max s.now moment) :
    exec (.rampUpEnd moment) s = .next
      (let t := ({ s with
        now := max s.now moment
        mode := { s.mode with panel := .lit, startup := .none } } : State).askFlag .done
       if s.mode.stopRecorded then t.enterStopping
       else if s.mode.faultHeld then
         (t.setMode { t.mode with part := .faulted, faultHeld := false }).order s.mode.part.beginOrder
       else (t.setMode { t.mode with part := .active, idleCount := 0 }).order s.mode.part.beginOrder) :=
  congrArg Host.Outcome.next (if_pos ⟨hrising, hdue⟩)

theorem beginOrder_eq (p : PartState) : p.beginOrder = if p = .waking then .beginBlank else .begin := by
  cases p <;> rfl

/-- Settles O12: a ramp that is not due leaves the state, and each branch of one that is. -/
theorem rampsEnd : Obligations.RampsEnd := by
  refine ⟨fun moment s => ⟨fun h => congrArg Host.Outcome.next (if_neg h), fun hrising hdue => ?_⟩,
    fun moment s => ⟨fun h => congrArg Host.Outcome.next (if_neg h), fun hfalling hdue => ?_⟩⟩
  · have hup := execRampUpEnd_eq hrising hdue
    simp only [beginOrder_eq] at hup
    refine ⟨fun hstop => ?_, fun hstop hheld => ?_, fun hstop hheld => ?_⟩
    · rw [hup, if_pos hstop]
      rfl
    · rw [hup, if_neg (Bool.eq_false_iff.1 hstop), if_pos hheld]
      rfl
    · rw [hup, if_neg (Bool.eq_false_iff.1 hstop), if_neg (Bool.eq_false_iff.1 hheld)]
      rfl
  · have hdown : ∀ t, _ = t → exec (.rampDownEnd moment) s = .next t := fun t ht =>
      congrArg Host.Outcome.next ((if_pos ⟨hfalling, hdue⟩).trans ht)
    refine ⟨fun hpart hstop => hdown _ ?_, fun hpart hstop => hdown _ ?_, fun hpart => hdown _ ?_⟩
    · rw [if_pos hpart, if_pos hstop]
      rfl
    · rw [if_pos hpart, if_neg (Bool.eq_false_iff.1 hstop)]
      rfl
    · rw [if_neg (by rw [hpart]; exact nofun)]
      rfl

/-! ## Boundaries (07 R134 to R136) -/

theorem quiet_iff (pub : PublicationReport) (poll : PollReport) :
    quiet pub poll = true ↔ pub.sets = 0 ∧ poll.appended = false ∧ poll.ticketTaken = false := by
  simp [quiet, and_assoc]

/-- 07 R135: the test for HOLD. -/
theorem holds_iff (s : State) :
    s.holds = true ↔
      (∃ p, s.mode.plan = some p ∧ p.holdThreshold ≠ 0 ∧ p.holdThreshold ≤ s.mode.idleCount) ∧
        s.engine.state = .idle ∧ ∀ l, (s.lane l).intake = [] := by
  unfold State.holds
  cases s.mode.plan with
  | none => simp
  | some p => simp [intakesEmpty_iff, and_assoc]

/-- The state in which the reports of a boundary have been matched (log 20). -/
def State.boundaryMatched (s : State) (pubs : List PublicationReport) (polls : List PollReport) : State :=
  { s with
    mode := { s.mode with pubReports := pubs, pollReports := polls }
    mail := { s.mail with modeBoundary := s.mail.modeBoundary.drop 1 } }

theorem execBoundaryEvaluation_eq {pub : PublicationReport} {pubs : List PublicationReport} {poll : PollReport}
    {polls : List PollReport} (hpub : s.mode.pubReports = pub :: pubs) (hpoll : s.mode.pollReports = poll :: polls) :
    exec .boundaryEvaluation s = .next
      (let t := s.boundaryMatched pubs polls
       match s.mode.part with
       | .active => (t.setMode { t.mode with idleCount := idleAfter t.mode.idleCount (quiet pub poll) }).tryHold
       | .hold => if quiet pub poll then t else t.returnToActive
       | .off | .starting | .sleeping | .sleep | .waking | .stopping | .faulted => t) := by
  show execBoundaryEvaluation s = _
  rw [execBoundaryEvaluation, hpub, hpoll]
  rfl

theorem idleAfter_quiet (count : Nat) (pub : PublicationReport) (poll : PollReport) :
    idleAfter count (quiet pub poll) =
      if pub.sets = 0 ∧ poll.appended = false ∧ poll.ticketTaken = false then min (count + 1) 255 else 0 :=
  if_congr (quiet_iff pub poll) rfl rfl

theorem tryHold_of_holds (h : s.holds = true) :
    s.tryHold = (s.setMode { s.mode with part := .hold }).order .heldCadence := if_pos h

theorem tryHold_of_not_holds (h : ¬s.holds = true) : s.tryHold = s := if_neg h

/-- Settles O14: with a report missing nothing is matched; with both, by the part state and the two tests. -/
theorem boundaryIsEvaluated : Obligations.BoundaryIsEvaluated := by
  intro s
  refine ⟨fun h => congrArg Host.Outcome.next ?_, fun pub pubs poll polls hpub hpoll => ?_⟩
  · split
    · rename_i hpub hpoll
      rcases h with h | h
      · cases hpub.symm.trans h
      · cases hpoll.symm.trans h
    · rfl
  · have heval := execBoundaryEvaluation_eq hpub hpoll
    refine ⟨fun hpart => ?_, fun hpart hquiet => ?_, fun hpart hquiet => ?_, fun hactive hhold => ?_⟩
    · intro count
      have hcount : idleAfter s.mode.idleCount (quiet pub poll) = count := idleAfter_quiet _ _ _
      have hstate : exec .boundaryEvaluation s = .next
          ((s.boundaryMatched pubs polls).setMode
            { (s.boundaryMatched pubs polls).mode with idleCount := count }).tryHold := by
        rw [heval, hpart, ← hcount]
        rfl
      refine ⟨fun h => ?_, fun h => ?_⟩
      · rw [hstate, tryHold_of_holds ((holds_iff _).2 h)]
        rfl
      · rw [hstate, tryHold_of_not_holds fun ht => h ((holds_iff _).1 ht)]
        rfl
    · rw [heval, hpart]
      exact congrArg Host.Outcome.next (if_pos ((quiet_iff pub poll).2 hquiet))
    · rw [heval, hpart]
      exact congrArg Host.Outcome.next (if_neg fun hq => hquiet ((quiet_iff pub poll).1 hq))
    · rw [heval]
      cases hpart : s.mode.part with
      | active => exact absurd hpart hactive
      | hold => exact absurd hpart hhold
      | off | starting | sleeping | sleep | waking | stopping | faulted => rfl

/-! ## Fault reports (07 R142) -/

/-- 07 R142: a fault report, by the part state, the panel, and whether a halt order has been sent or a STOP recorded. -/
theorem faultReport_eq (s : State) :
    s.faultReport =
      match s.mode.part, s.mode.panel, s.mode.haltSent, s.mode.stopRecorded with
      | .active, _, _, _ | .sleeping, .lit, false, false =>
        { s with
          mode := { s.mode with part := .faulted }
          arbiter := { s.arbiter with requestWaiting := false } }
      | .hold, _, _, _ =>
        { s with
          mode := { s.mode with part := .faulted }
          arbiter := { s.arbiter with requestWaiting := false }
          mail := { s.mail with scanOrders := s.mail.scanOrders ++ [.frameCadence] } }
      | .sleeping, .lit, false, true =>
        { s with
          mode := { s.mode with part := .stopping, stopRecorded := false, faultHeld := false, finishSent := false }
          arbiter := { s.arbiter with requestWaiting := false }
          mail := { s.mail with stopNotice := true, abortStop := true } }
      | .sleeping, _, _, _ | .sleep, _, _, _ | .starting, _, _, _ | .waking, _, _, _ =>
        { s with mode := { s.mode with faultHeld := true } }
      | .stopping, _, _, _ | .off, _, _, _ | .faulted, _, _, _ => s := by
  unfold State.faultReport
  cases s.mode.part with
  | sleeping =>
    cases s.mode.panel with
    | lit => cases s.mode.haltSent <;> cases s.mode.stopRecorded <;> rfl
    | dark | rising | falling => rfl
  | off | starting | active | hold | sleep | waking | stopping | faulted => rfl

theorem execDamageLimitReport_eq {n : Nat} (h : s.mail.damageLimit = n + 1) :
    exec .damageLimitReport s = .next ({ s with mail := { s.mail with damageLimit := n } } : State).faultReport := by
  show execDamageLimitReport s = _
  rw [execDamageLimitReport, h]

theorem execRecorderFailureReport_eq {n : Nat} (h : s.mail.recorderFailures = n + 1) :
    exec .recorderFailureReport s =
      .next ({ s with mail := { s.mail with recorderFailures := n } } : State).faultReport := by
  show execRecorderFailureReport s = _
  rw [execRecorderFailureReport, h]

/-- 07 R141: the end of a STOP's endings in SLEEP clears fault held. -/
theorem sleepStop_clears_faultHeld {t : State} (e : exec .sleepStopEndingsDone s = .next t) (hs : s.mode.part = .sleep)
    (ht : t.mode.part = .off) : t.mode.faultHeld = false := by
  obtain rfl := Host.Outcome.next.inj ((execSleepStopEndingsDone_eq s).symm.trans e)
  split at ht
  · rename_i hover
    rw [if_pos hover]
  · cases hs.symm.trans ht

/-- Settles O15: the report by the table, no report by its count, and fault held by what every step does. -/
theorem faultReportsAct : Obligations.FaultReportsAct := by
  refine ⟨fun c s mail h => ?_, fun s => ⟨fun h => ?_, fun h => ?_⟩, fun c s t e => ⟨fun hs ht => ?_, ?_⟩⟩
  · rcases h with ⟨rfl, n, hn, rfl⟩ | ⟨rfl, n, hn, rfl⟩
    · exact (execDamageLimitReport_eq hn).trans (congrArg Host.Outcome.next (faultReport_eq _))
    · exact (execRecorderFailureReport_eq hn).trans (congrArg Host.Outcome.next (faultReport_eq _))
  · show execDamageLimitReport s = _
    rw [execDamageLimitReport, h]
  · show execRecorderFailureReport s = _
    rw [execRecorderFailureReport, h]
  · rcases exec_modeStep e with hstep | ⟨-, hreset⟩
    · exact hstep.cleared hs ht
    · cases (congrArg ModeView.part hreset).symm.trans ht
  · rintro rfl hs ht
    exact sleepStop_clears_faultHeld e hs ht

end

end Sys2Proof.Machine
end

section
/-! PROOFS. The plans that START accepts (07 R128, R130, 10 R167): the zone entries as read, the zones that cover the
rows one after the other, and the values of an accepted plan. -/

namespace Sys2Proof.Machine

/-! ## The zone entries as they stand in the plan (10 R167) -/

section

variable {bs : List Byte}

/-- The first row that zone entry `i` gives. -/
def zoneFirst (bs : List Byte) (i : Nat) : Nat := (halfAt bs (32 + 8 * i)).toNat

/-- The row count that zone entry `i` gives. -/
def zoneRows (bs : List Byte) (i : Nat) : Nat := (halfAt bs (34 + 8 * i)).toNat

/-- The owner lane that zone entry `i` gives. -/
def zoneOwner (bs : List Byte) (i : Nat) : Nat := (byteAt bs (36 + 8 * i)).toNat

/-- The zone has the values of zone entry `i`. -/
structure Zone.ReadFrom (z : Zone) (bs : List Byte) (i : Nat) : Prop where
  first : z.firstRow = zoneFirst bs i
  rows  : z.rowCount = zoneRows bs i
  owner : z.owner.val = zoneOwner bs i
  shown : z.shown = true ↔ byteAt bs (37 + 8 * i) ≠ 0

theorem laneOf_eq_some {b : Byte} {l : Lane} : laneOf b = some l ↔ b.toNat = l.val := by
  unfold laneOf
  split
  · rw [Option.some_inj, Fin.ext_iff]
  · refine ⟨nofun, fun h => ?_⟩
    omega

theorem zoneAt_readFrom {i : Nat} {z : Zone} (h : zoneAt bs i = some z) : z.ReadFrom bs i := by
  unfold zoneAt at h
  split at h
  · cases h
  · rename_i owner howner
    cases h
    have hrows : 32 + 8 * i + 2 = 34 + 8 * i := by omega
    have hlane : 32 + 8 * i + 4 = 36 + 8 * i := by omega
    have hshown : 32 + 8 * i + 5 = 37 + 8 * i := by omega
    rw [hlane] at howner
    refine ⟨rfl, ?_, (laneOf_eq_some.1 howner).symm, ?_⟩
    · rw [hrows]
      rfl
    · rw [hshown]
      exact bne_iff_ne

theorem zoneAt_isSome {i : Nat} : (zoneAt bs i).isSome = true ↔ zoneOwner bs i ≤ 3 := by
  have hlane : 32 + 8 * i + 4 = 36 + 8 * i := by omega
  unfold zoneAt zoneOwner laneOf
  rw [hlane]
  by_cases h : (byteAt bs (36 + 8 * i)).toNat < 4
  · rw [dif_pos h]
    exact ⟨fun _ => Nat.le_of_lt_succ h, fun _ => rfl⟩
  · rw [dif_neg h]
    exact ⟨nofun, fun hle => absurd (Nat.lt_succ_of_le hle) h⟩

/-- What the zones read from entry `i` on are. -/
theorem zonesFrom_readFrom {n i : Nat} {zs : List Zone} (h : zonesFrom bs n i = some zs) :
    zs.length = n ∧ ∀ (k : Nat) (z : Zone), zs[k]? = some z → z.ReadFrom bs (i + k) := by
  induction n generalizing i zs with
  | zero =>
    cases h
    exact ⟨rfl, nofun⟩
  | succ n ih =>
    unfold zonesFrom at h
    split at h
    · rename_i z zs' hz hzs
      cases h
      obtain ⟨hlength, hread⟩ := ih hzs
      refine ⟨congrArg Nat.succ hlength, fun k z' hk => ?_⟩
      cases k with
      | zero =>
        cases hk
        exact zoneAt_readFrom hz
      | succ k =>
        have hplace : i + (k + 1) = i + 1 + k := by omega
        exact hplace ▸ hread k z' hk
    · cases h

/-- The zones are read if each entry gives an owner lane. -/
theorem zonesFrom_isSome {n i : Nat} :
    (zonesFrom bs n i).isSome = true ↔ ∀ k, k < n → zoneOwner bs (i + k) ≤ 3 := by
  induction n generalizing i with
  | zero => exact ⟨fun _ _ => nofun, fun _ => rfl⟩
  | succ n ih =>
    have hsplit : (zonesFrom bs (n + 1) i).isSome = true ↔
        (zoneAt bs i).isSome = true ∧ (zonesFrom bs n (i + 1)).isSome = true := by
      rw [zonesFrom]
      cases zoneAt bs i <;> cases zonesFrom bs n (i + 1) <;> simp
    rw [hsplit, zoneAt_isSome, ih, Nat.forall_lt_succ_left]
    refine and_congr_right fun _ => forall₂_congr fun k _ => ?_
    rw [show i + 1 + k = i + (k + 1) by omega]

end

/-! ## Zones that cover the rows (07 R130) -/

section

variable {zs : List Zone} {next row : Nat}

theorem zonesCover_cons (next : Nat) (z : Zone) (zs : List Zone) :
    zonesCover next (z :: zs) = true ↔
      z.firstRow = next ∧ 1 ≤ z.rowCount ∧ z.rowCount ≤ 240 ∧ zonesCover (next + z.rowCount) zs = true := by
  simp [zonesCover, and_assoc]

/-- 07 R130: the zones are contiguous, begin at `next` and end at row 240. -/
theorem zonesCover_iff {first rows : Nat → Nat}
    (h : ∀ (k : Nat) (z : Zone), zs[k]? = some z → z.firstRow = first k ∧ z.rowCount = rows k) :
    zonesCover next zs = true ↔
      (∀ k, k < zs.length → 1 ≤ rows k ∧ rows k ≤ 240) ∧ (zs ≠ [] → first 0 = next) ∧
        (∀ k, k + 1 < zs.length → first (k + 1) = first k + rows k) ∧
        next + ((List.range zs.length).map rows).sum = 240 := by
  induction zs generalizing next first rows with
  | nil => simp [zonesCover]
  | cons z zs ih =>
    obtain ⟨hfirst, hrows⟩ := h 0 z rfl
    have ih := ih (next := next + rows 0) (first := fun k => first (k + 1)) (rows := fun k => rows (k + 1))
      fun k z' hk => h (k + 1) z' hk
    have hsum : ((List.range (zs.length + 1)).map rows).sum =
        rows 0 + ((List.range zs.length).map fun k => rows (k + 1)).sum := by
      rw [List.range_succ_eq_map, List.map_cons, List.map_map, List.sum_cons]
      rfl
    rw [zonesCover_cons, hfirst, hrows, ih, List.length_cons, hsum, Nat.forall_lt_succ_left, ← Nat.add_assoc]
    constructor
    · rintro ⟨hnext, hlow, hhigh, hrest, hjoin, hchain, htotal⟩
      refine ⟨⟨⟨hlow, hhigh⟩, hrest⟩, fun _ => hnext, fun k hk => ?_, htotal⟩
      cases k with
      | zero => exact (hjoin (List.ne_nil_of_length_pos (Nat.lt_of_succ_lt_succ hk))).trans (by rw [hnext])
      | succ k => exact hchain k (Nat.lt_of_succ_lt_succ hk)
    · rintro ⟨⟨⟨hlow, hhigh⟩, hrest⟩, hhead, hchain, htotal⟩
      have hnext := hhead (List.cons_ne_nil z zs)
      refine ⟨hnext, hlow, hhigh, hrest, fun hne => ?_, fun k hk => hchain (k + 1) (Nat.succ_lt_succ hk), htotal⟩
      exact (hchain 0 (Nat.succ_lt_succ (List.length_pos_iff.2 hne))).trans (by rw [hnext])

/-- Whether a zone has the row. -/
def Zone.has (row : Nat) (z : Zone) : Bool := z.firstRow ≤ row && row < z.firstRow + z.rowCount

theorem Zone.has_iff (z : Zone) : z.has row = true ↔ z.firstRow ≤ row ∧ row < z.firstRow + z.rowCount := by
  simp [Zone.has]

/-- No zone has a row before the first. -/
theorem filter_has_of_before (h : zonesCover next zs = true) (hrow : row < next) : zs.filter (Zone.has row) = [] := by
  induction zs generalizing next with
  | nil => rfl
  | cons z zs ih =>
    obtain ⟨hfirst, -, -, hrest⟩ := (zonesCover_cons next z zs).1 h
    have hnot : ¬z.has row = true := fun hz => by
      have := (z.has_iff.1 hz).1
      omega
    rw [List.filter_cons_of_neg hnot]
    exact ih hrest (by omega)

/-- Every other row lies in one zone. -/
theorem filter_has_of_covered (h : zonesCover next zs = true) (hnext : next ≤ row) (hrow : row < 240) :
    (zs.filter (Zone.has row)).length = 1 := by
  induction zs generalizing next with
  | nil =>
    have hend : next = 240 := eq_of_beq h
    omega
  | cons z zs ih =>
    obtain ⟨hfirst, -, -, hrest⟩ := (zonesCover_cons next z zs).1 h
    by_cases hz : row < next + z.rowCount
    · rw [List.filter_cons_of_pos (z.has_iff.2 (by omega)), filter_has_of_before hrest hz]
      rfl
    · rw [List.filter_cons_of_neg (fun hhas => hz (by have := (z.has_iff.1 hhas).2; omega))]
      exact ih hrest (Nat.le_of_not_lt hz)

end

/-! ## The plan (07 R128, R130, 10 R167) -/

section

variable {bs : List Byte}

theorem markModeOf_isSome {b : Byte} : (markModeOf b).isSome = true ↔ b.toNat ≤ 2 := by
  have hcodes : b.toNat ≤ 2 ↔ b = 0 ∨ b = 1 ∨ b = 2 := by
    constructor
    · intro h
      bv_omega
    · rintro (rfl | rfl | rfl) <;> decide
  unfold markModeOf
  rw [hcodes]
  split
  · exact ⟨fun _ => .inl ‹_›, fun _ => rfl⟩
  · split
    · exact ⟨fun _ => .inr (.inl ‹_›), fun _ => rfl⟩
    · split
      · exact ⟨fun _ => .inr (.inr ‹_›), fun _ => rfl⟩
      · exact ⟨nofun, fun h => by rcases h with h | h | h <;> contradiction⟩

theorem markModeOf_eq_some {b : Byte} {m : MarkMode} (h : markModeOf b = some m) :
    (m = .off ↔ b = 0) ∧ (m = .commit ↔ b = 1) ∧ (m = .every ↔ b = 2) := by
  unfold markModeOf at h
  split at h
  · cases h
    simp_all
  · split at h
    · cases h
      simp_all
    · split at h
      · cases h
        simp_all
      · cases h

/-- 07 R130: the limits of the values of a plan with these zones. -/
structure PlanFits (bs : List Byte) (zones : List Zone) : Prop where
  format  : halfAt bs 0 = 1
  count   : 1 ≤ zones.length ∧ zones.length ≤ 4
  cover   : zonesCover 0 zones = true
  period  : 100 ≤ (halfAt bs 2).toNat ∧ (halfAt bs 2).toNat ≤ 400
  divider : 2 ≤ (byteAt bs 5).toNat ∧ (byteAt bs 5).toNat ≤ 16

/-- An accepted plan is made of a mark mode and zones that could be read, and of values within their limits. -/
theorem planOf_eq_some {p : Plan} :
    planOf bs = some p ↔ ∃ mark zones, markModeOf (byteAt bs 6) = some mark ∧
      zonesFrom bs (byteAt bs 7).toNat 0 = some zones ∧ PlanFits bs zones ∧
      p = { format := halfAt bs 0, period := (halfAt bs 2).toNat, holdThreshold := (byteAt bs 4).toNat,
            holdDivider := (byteAt bs 5).toNat, markMode := mark, background := halfAt bs 8,
            faultColour := halfAt bs 10, zones := zones } := by
  unfold planOf
  constructor
  · intro h
    split at h
    · rename_i mark zones hmark hzones
      dsimp only at h
      split at h
      · rename_i hfits
        obtain ⟨hformat, hone, hfour, hcover, hshort, hlong, htwo, hsixteen⟩ := hfits
        cases h
        exact ⟨mark, zones, hmark, hzones, ⟨hformat, ⟨hone, hfour⟩, hcover, ⟨hshort, hlong⟩, htwo, hsixteen⟩, rfl⟩
      · cases h
    · cases h
  · rintro ⟨mark, zones, hmark, hzones, ⟨hformat, ⟨hone, hfour⟩, hcover, ⟨hshort, hlong⟩, htwo, hsixteen⟩, rfl⟩
    rw [hmark, hzones]
    exact if_pos ⟨hformat, hone, hfour, hcover, hshort, hlong, htwo, hsixteen⟩

/-- The cover of the rows by the zones as they stand in the plan. -/
theorem zonesCover_of_zonesFrom {n : Nat} {zs : List Zone} (h : zonesFrom bs n 0 = some zs) (hn : 1 ≤ n) :
    zonesCover 0 zs = true ↔
      (∀ i, i < n → 1 ≤ zoneRows bs i ∧ zoneRows bs i ≤ 240) ∧ zoneFirst bs 0 = 0 ∧
        (∀ i, i + 1 < n → zoneFirst bs (i + 1) = zoneFirst bs i + zoneRows bs i) ∧
        ((List.range n).map (zoneRows bs)).sum = 240 := by
  obtain ⟨rfl, hread⟩ := zonesFrom_readFrom h
  have hne : zs ≠ [] := List.ne_nil_of_length_pos hn
  have hvalues : ∀ (k : Nat) (z : Zone), zs[k]? = some z → z.firstRow = zoneFirst bs k ∧ z.rowCount = zoneRows bs k := by
    intro k z hk
    have hz := hread k z hk
    rw [Nat.zero_add] at hz
    exact ⟨hz.first, hz.rows⟩
  rw [zonesCover_iff hvalues, Nat.zero_add]
  exact and_congr_right fun _ => and_congr_left fun _ => ⟨fun hhead => hhead hne, fun hhead _ => hhead⟩

theorem planOf_isSome :
    (planOf bs).isSome = true ↔
      halfAt bs 0 = 1 ∧ 1 ≤ (byteAt bs 7).toNat ∧ (byteAt bs 7).toNat ≤ 4 ∧
        (∀ i, i < (byteAt bs 7).toNat → 1 ≤ zoneRows bs i ∧ zoneRows bs i ≤ 240) ∧ zoneFirst bs 0 = 0 ∧
        (∀ i, i + 1 < (byteAt bs 7).toNat → zoneFirst bs (i + 1) = zoneFirst bs i + zoneRows bs i) ∧
        ((List.range (byteAt bs 7).toNat).map (zoneRows bs)).sum = 240 ∧
        (∀ i, i < (byteAt bs 7).toNat → zoneOwner bs i ≤ 3) ∧
        100 ≤ (halfAt bs 2).toNat ∧ (halfAt bs 2).toNat ≤ 400 ∧ 2 ≤ (byteAt bs 5).toNat ∧
        (byteAt bs 5).toNat ≤ 16 ∧ (byteAt bs 6).toNat ≤ 2 := by
  have howners : (zonesFrom bs (byteAt bs 7).toNat 0).isSome = true ↔
      ∀ i, i < (byteAt bs 7).toNat → zoneOwner bs i ≤ 3 := by
    rw [zonesFrom_isSome]
    simp only [Nat.zero_add]
  rw [Option.isSome_iff_exists]
  constructor
  · rintro ⟨p, hp⟩
    obtain ⟨mark, zones, hmark, hzones, hfits, -⟩ := planOf_eq_some.1 hp
    have hlength := (zonesFrom_readFrom hzones).1
    obtain ⟨hformat, ⟨hone, hfour⟩, hcover, ⟨hshort, hlong⟩, htwo, hsixteen⟩ := hfits
    rw [hlength] at hone hfour
    obtain ⟨hrows, hhead, hchain, hsum⟩ := (zonesCover_of_zonesFrom hzones hone).1 hcover
    exact ⟨hformat, hone, hfour, hrows, hhead, hchain, hsum, howners.1 (by rw [hzones]; rfl), hshort, hlong, htwo,
      hsixteen, markModeOf_isSome.1 (by rw [hmark]; rfl)⟩
  · rintro ⟨hformat, hone, hfour, hrows, hhead, hchain, hsum, howner, hshort, hlong, htwo, hsixteen, hmark⟩
    obtain ⟨zones, hzones⟩ := Option.isSome_iff_exists.1 (howners.2 howner)
    obtain ⟨mark, hmark⟩ := Option.isSome_iff_exists.1 (markModeOf_isSome.2 hmark)
    have hlength := (zonesFrom_readFrom hzones).1
    have hcover := (zonesCover_of_zonesFrom hzones hone).2 ⟨hrows, hhead, hchain, hsum⟩
    exact ⟨_, planOf_eq_some.2 ⟨mark, zones, hmark, hzones,
      ⟨hformat, hlength ▸ ⟨hone, hfour⟩, hcover, ⟨hshort, hlong⟩, htwo, hsixteen⟩, rfl⟩⟩

/-- Settles O9: acceptance by the zones' cover, and the values by how the plan is read. -/
theorem planIsAcceptedExactlyWhen : Obligations.PlanIsAcceptedExactlyWhen := by
  refine ⟨⟨fun bs => planOf_isSome, fun bs p hp row hrow => ?_⟩, fun bs p hp => ?_⟩
  · obtain ⟨mark, zones, -, -, hfits, rfl⟩ := planOf_eq_some.1 hp
    exact filter_has_of_covered hfits.cover (Nat.zero_le row) hrow
  · obtain ⟨mark, zones, hmark, hzones, hfits, rfl⟩ := planOf_eq_some.1 hp
    obtain ⟨hlength, hread⟩ := zonesFrom_readFrom hzones
    obtain ⟨hoff, hcommit, hevery⟩ := markModeOf_eq_some hmark
    refine ⟨hfits.format, rfl, rfl, rfl, rfl, rfl, hoff, hcommit, hevery, hlength, fun i z hz => ?_⟩
    obtain ⟨hfirst, hrows, howner, hshown⟩ := hread i z hz
    rw [Nat.zero_add] at hfirst hrows howner hshown
    exact ⟨hfirst, hrows, howner, hshown⟩

end

end Sys2Proof.Machine
end

section
/-! PROOFS. The Fault Recorder (Chapter 8): a sender's oldest request is taken, the request in hand is dropped and the
next one taken, and each transfer by how it ended. -/

namespace Sys2Proof.Machine

/-! ## A sender's oldest request (08 R149) -/

theorem takeFrom_eq_none {sender : FaultSender} {requests : List (FaultSender × FaultRequest)}
    (h : ∀ r, (sender, r) ∉ requests) : takeFrom sender requests = none := by
  induction requests with
  | nil => rfl
  | cons request rest ih =>
    obtain ⟨from', r⟩ := request
    have hother : from' ≠ sender := fun he => h r (he ▸ List.mem_cons_self)
    rw [takeFrom, if_neg hother, ih fun r' hr' => h r' (List.mem_cons_of_mem _ hr')]

theorem takeFrom_append {sender : FaultSender} {before : List (FaultSender × FaultRequest)}
    (h : ∀ r', (sender, r') ∉ before) (r : FaultRequest) (after : List (FaultSender × FaultRequest)) :
    takeFrom sender (before ++ (sender, r) :: after) = some (r, before ++ after) := by
  induction before with
  | nil => exact if_pos rfl
  | cons request before ih =>
    obtain ⟨from', r'⟩ := request
    have hother : from' ≠ sender := fun he => h r' (he ▸ List.mem_cons_self)
    rw [List.cons_append, takeFrom, if_neg hother, ih fun r'' hr => h r'' (List.mem_cons_of_mem _ hr)]
    rfl

/-! ## The next request is taken (08 R149, R150) -/

section

variable {s : State}

theorem takeFault_busy {f : StampedFault} (h : s.recorder.inHand = some f) : s.takeFault = s := by
  rw [State.takeFault, h]

theorem takeFault_empty (h : s.recorder.queue = []) : s.takeFault = s := by
  unfold State.takeFault
  split
  case h_1 hq => cases h.symm.trans hq
  case h_2 => rfl

theorem takeFault_search {f : StampedFault} {more : List StampedFault} (hhand : s.recorder.inHand = none)
    (hfull : s.recorder.tableFull = false) (hq : s.recorder.queue = f :: more) :
    s.takeFault = { s with recorder := { s.recorder with
      queue := more, inHand := some f
      work := .searching s.port.exb ((s.recorder.position + 1) % 16) 0 } } := by
  rw [State.takeFault, hhand, hq]
  dsimp only
  rw [hfull]
  rfl

theorem takeFault_full (hhand : s.recorder.inHand = none) (hfull : s.recorder.tableFull = true) :
    s.takeFault = { s with
      recorder := { s.recorder with queue := [] }
      mail := { s.mail with
        flagRequests := s.mail.flagRequests ++ List.replicate s.recorder.queue.length .overflow } } := by
  cases hq : s.recorder.queue with
  | nil =>
    rw [takeFault_empty hq, List.length_nil, List.replicate_zero, List.append_nil, ← hq]
  | cons f more =>
    rw [State.takeFault, hhand, hq]
    dsimp only
    rw [if_pos hfull]
    rfl

/-! ## The request in hand is dropped -/

theorem dropFault_empty (hq : s.recorder.queue = []) :
    s.dropFault = { s with recorder := { s.recorder with inHand := none, work := .idle } } :=
  takeFault_empty hq

theorem dropFault_search {f : StampedFault} {more : List StampedFault} (hfull : s.recorder.tableFull = false)
    (hq : s.recorder.queue = f :: more) :
    s.dropFault = { s with recorder := { s.recorder with
      queue := more, inHand := some f
      work := .searching s.port.exb ((s.recorder.position + 1) % 16) 0 } } :=
  takeFault_search rfl hfull hq

theorem dropFault_full (hfull : s.recorder.tableFull = true) :
    s.dropFault = { s with
      recorder := { s.recorder with inHand := none, work := .idle, queue := [] }
      mail := { s.mail with
        flagRequests := s.mail.flagRequests ++ List.replicate s.recorder.queue.length .overflow } } :=
  takeFault_full rfl hfull

end

/-- The recorder once its request in hand is dropped and the next taken, and the flags it asks for meanwhile. -/
def FaultRecorder.dropped (r : FaultRecorder) (exb : Word) : FaultRecorder × List Flag :=
  match r.queue, r.tableFull with
  | [], _ => ({ r with inHand := none, work := .idle }, [])
  | f :: more, false =>
    ({ r with queue := more, inHand := some f, work := .searching exb ((r.position + 1) % 16) 0 }, [])
  | q, true => ({ r with inHand := none, work := .idle, queue := [] }, List.replicate q.length .overflow)

theorem dropFault_eq (s : State) :
    s.dropFault = { s with
      recorder := (s.recorder.dropped s.port.exb).1
      mail := { s.mail with flagRequests := s.mail.flagRequests ++ (s.recorder.dropped s.port.exb).2 } } := by
  unfold FaultRecorder.dropped
  split
  case h_1 hq => rw [List.append_nil, dropFault_empty hq]
  case h_2 f more hq hfull => rw [List.append_nil, dropFault_search hfull hq]
  case h_3 hfull _ => exact dropFault_full hfull

/-- 08 R153: a recorder failure is reported and asks for OVERFLOW, and the request in hand is dropped. -/
theorem recorderFails_eq (s : State) :
    s.recorderFails = { s with
      recorder := (s.recorder.dropped s.port.exb).1
      mail := { s.mail with
        recorderFailures := s.mail.recorderFailures + 1
        flagRequests := s.mail.flagRequests ++ [.overflow] ++ (s.recorder.dropped s.port.exb).2 } } :=
  dropFault_eq _

/-! ## A request that reaches the recorder (08 R149) -/

section

variable {sender : FaultSender} {s : State} {r : FaultRequest} {rest : List (FaultSender × FaultRequest)}

theorem execFaultRequest_room (htaken : takeFrom sender s.mail.faultRequests = some (r, rest))
    (hroom : s.recorder.queue.length < 8) :
    execFaultRequest sender s = .next ({ s with
      mail := { s.mail with faultRequests := rest }
      recorder := { s.recorder with queue := s.recorder.queue ++ [s.stamp r] } } : State).takeFault := by
  rw [execFaultRequest, htaken]
  exact congrArg _ (if_pos hroom)

theorem execFaultRequest_noRoom (htaken : takeFrom sender s.mail.faultRequests = some (r, rest))
    (hfull : 8 ≤ s.recorder.queue.length) :
    execFaultRequest sender s =
      .next (({ s with mail := { s.mail with faultRequests := rest } } : State).askFlag .overflow) := by
  rw [execFaultRequest, htaken]
  exact congrArg _ (if_neg (Nat.not_lt.2 hfull))

end

/-! ## The search of the fault table (08 R150, R153) -/

section

variable {s : State} {bus : BusEvent} {base : Word} {entry examined : Nat}

theorem execFaultSearchRead_error (hwork : s.recorder.work = .searching base entry examined) (he : bus.error ≠ none) :
    execFaultSearchRead bus s = .next (s.busRead bus).recorderFails := by
  rw [execFaultSearchRead, hwork]
  dsimp only
  rw [busData_error s he]

/-- A read that ended without a bus error, by the state field of the entry it read. -/
theorem execFaultSearchRead_clean (hwork : s.recorder.work = .searching base entry examined) (he : bus.error = none) :
    execFaultSearchRead bus s = .next
      (let t := s.busRead bus
      if Memory.read t.mem (base + BitVec.ofNat 32 (192 + 16 * entry)).toNat = 0 then
        { t with recorder := { t.recorder with work := .writing base entry } }
      else if examined + 1 < 16 then
        { t with recorder := { t.recorder with work := .searching base ((entry + 1) % 16) (examined + 1) } }
      else ({ t with recorder := { t.recorder with tableFull := true } }.askFlag .overflow).dropFault) := by
  have hfirst : byteAt (Memory.readBytes (Memory.hostWrites s.mem bus.host) (faultEntryAddress base entry) 1) 0 =
      Memory.read (Memory.hostWrites s.mem bus.host) (base + BitVec.ofNat 32 (192 + 16 * entry)).toNat :=
    congrArg (fun a : Word => Memory.read _ a.toNat) (BitVec.add_zero _)
  rw [execFaultSearchRead, hwork]
  dsimp only
  rw [busData_clean s he]
  dsimp only
  rw [hfirst]
  rfl

end

/-! ## The entry write (08 R151, R153) -/

/-- The sixteen bytes of a fault entry, field by field (10 R171, R172). -/
theorem faultEntryBytes_eq (f : StampedFault) :
    faultEntryBytes f =
      [BitVec.ofNat 8 (f.request.code.code + 16 * f.part.code),
        (f.request.lane.map fun l => BitVec.ofNat 8 l.val).getD 0xFF] ++
        halfBytes (f.request.serial.getD 0) ++ halfBytes (BitVec.ofNat 16 (f.request.row.getD 0xFFFF)) ++
        halfBytes (BitVec.ofNat 16 (f.request.line.getD 0xFFFF)) ++ wordBytes f.frame ++
        wordBytes (f.request.address.getD 0) := by
  unfold faultEntryBytes
  cases f.request.lane with
  | none => rfl
  | some l => rfl

section

variable {s : State} {bus : BusEvent} {base : Word} {entry : Nat} {f : StampedFault}

theorem execFaultEntryWrite_error (hwork : s.recorder.work = .writing base entry) (hhand : s.recorder.inHand = some f)
    (he : bus.error ≠ none) :
    execFaultEntryWrite bus s =
      .next (s.busWrite bus (faultEntryAddress base entry) (faultEntryBytes f)).recorderFails := by
  rw [execFaultEntryWrite, hwork, hhand]
  dsimp only
  rw [busClean_error he]
  rfl

theorem execFaultEntryWrite_clean (hwork : s.recorder.work = .writing base entry) (hhand : s.recorder.inHand = some f)
    (he : bus.error = none) :
    execFaultEntryWrite bus s = .next
      (let t := s.busWrite bus (faultEntryAddress base entry) (faultEntryBytes f)
      ({ t with recorder := { t.recorder with position := entry } }.askFlag .fault).dropFault) := by
  rw [execFaultEntryWrite, hwork, hhand]
  dsimp only
  rw [busClean_clean he]
  rfl

end

/-! ## The statements -/

/-- Settles O45, by whether the sender has a request, whether the queue has room, and what becomes of the next one. -/
theorem faultRequestIsStampedAndQueued : Obligations.FaultRequestIsStampedAndQueued := by
  intro sender s
  refine ⟨fun hnone => ?_, fun before r after hmail hbefore => ?_⟩
  · show execFaultRequest sender s = _
    rw [execFaultRequest, takeFrom_eq_none hnone]
  · have htaken : takeFrom sender s.mail.faultRequests = some (r, before ++ after) :=
      hmail ▸ takeFrom_append hbefore r after
    refine ⟨execFaultRequest_noRoom htaken, fun f hroom hhand => ?_, fun f more hroom hhand hclear hqueue => ?_,
      fun hroom hhand hset => ?_⟩
    · exact (execFaultRequest_room htaken hroom).trans (congrArg _ (takeFault_busy hhand))
    · exact (execFaultRequest_room htaken hroom).trans (congrArg _ (takeFault_search hhand hclear hqueue))
    · have hlength : (s.recorder.queue ++ [s.stamp r]).length = s.recorder.queue.length + 1 := List.length_append
      rw [← hlength]
      exact (execFaultRequest_room htaken hroom).trans (congrArg _ (takeFault_full hhand hset))

/-- Settles O46: each transfer by how it ended, then the next request by the queue and table full. -/
theorem faultEntryIsSearchedAndWritten : Obligations.FaultEntryIsSearchedAndWritten := by
  intro bus s next mem failed
  have hfails (mem' : List Host.Cell) : ({ s with mem := mem' } : State).recorderFails = failed mem' :=
    recorderFails_eq _
  refine ⟨fun base entry examined hwork => ⟨fun he => ?_, fun he hempty => ?_, fun he hused hmore => ?_,
      fun he hused hlast => ?_⟩,
    fun base entry f hwork hhand => ?_, fun hnone => ?_, fun n hsome => ?_⟩
  · exact (execFaultSearchRead_error hwork he).trans (congrArg _ (hfails mem))
  · exact (execFaultSearchRead_clean hwork he).trans (congrArg _ (if_pos hempty))
  · exact (execFaultSearchRead_clean hwork he).trans (congrArg _ ((if_neg hused).trans (if_pos hmore)))
  · rw [List.replicate_succ, List.append_cons]
    exact (execFaultSearchRead_clean hwork he).trans
      (congrArg _ ((if_neg hused).trans ((if_neg (Nat.not_lt.2 hlast)).trans (dropFault_full rfl))))
  · rw [← faultEntryBytes_eq]
    refine ⟨fun he => ?_, fun he hclear => ?_, fun he hset => ?_⟩
    · exact (execFaultEntryWrite_error hwork hhand he).trans (congrArg _ (hfails _))
    · refine (execFaultEntryWrite_clean hwork hhand he).trans (congrArg _ ?_)
      cases hq : s.recorder.queue with
      | nil => exact dropFault_empty hq
      | cons g more => exact dropFault_search hclear hq
    · exact (execFaultEntryWrite_clean hwork hhand he).trans (congrArg _ (dropFault_full hset))
  · show execOverflowClear s = _
    rw [execOverflowClear, hnone]
  · show execOverflowClear s = _
    rw [execOverflowClear, hsome]

end Sys2Proof.Machine
end

section
/-! PROOFS. The pending flags, their enables and the interrupt line (08 R155, R156), and the pins INT, CMK and PEN (07
R144, 09 R163, R164). -/

namespace Sys2Proof.Machine

/-! ## One flag of a set -/

namespace FlagSet

theorem get_set_same (fs : FlagSet) (f : Flag) : (fs.set f).get f = true := by cases f <;> rfl

/-- 08 R155: setting a flag sets it and no other. -/
theorem set_eq (fs : FlagSet) (f : Flag) :
    fs.set f =
      { notify := fs.notify || f == .notify, fault := fs.fault || f == .fault, lane := fs.lane || f == .lane,
        done := fs.done || f == .done, overflow := fs.overflow || f == .overflow } := by
  cases f <;> simp [FlagSet.set]

@[simp] theorem get_clear (f : Flag) : FlagSet.clear.get f = false := by cases f <;> rfl

/-- 09 R157: a flag of the bits of a register word is the bit at the flag's position. -/
theorem get_ofBits_flagBits (value : Word) (f : Flag) :
    (FlagSet.ofBits (flagBits value)).get f = value.getLsbD f.position := by
  cases f <;> simp [FlagSet.ofBits, FlagSet.get, flagBits, Flag.position]

end FlagSet

/-! ## The interrupt line (08 R156) -/

section

variable {p : RegisterPort}

theorem interruptLine_held (h : p.resetPin = true) : p.interruptLine = false := by
  rw [RegisterPort.interruptLine, h]
  rfl

theorem interruptLine_iff (h : p.resetPin = false) :
    p.interruptLine = true ↔ ∃ f : Flag, p.flags.get f = true ∧ p.enables.get f = true := by
  rw [RegisterPort.interruptLine, h]
  simp only [Bool.not_false, Bool.true_and, Bool.or_eq_true, Bool.and_eq_true]
  constructor
  · rintro ((((hset | hset) | hset) | hset) | hset)
    · exact ⟨.notify, hset⟩
    · exact ⟨.fault, hset⟩
    · exact ⟨.lane, hset⟩
    · exact ⟨.done, hset⟩
    · exact ⟨.overflow, hset⟩
  · rintro ⟨f, hset⟩
    cases f with
    | notify => exact .inl (.inl (.inl (.inl hset)))
    | fault => exact .inl (.inl (.inl (.inr hset)))
    | lane => exact .inl (.inl (.inr hset))
    | done => exact .inl (.inr hset)
    | overflow => exact .inr hset

/-- With every flag disabled the line is low. -/
theorem interruptLine_disabled (h : ∀ f : Flag, p.enables.get f = false) : p.interruptLine = false := by
  cases hpin : p.resetPin with
  | true => exact interruptLine_held hpin
  | false =>
    refine Bool.eq_false_iff.2 fun hline => ?_
    obtain ⟨f, -, henabled⟩ := (interruptLine_iff hpin).1 hline
    exact Bool.false_ne_true ((h f).symm.trans henabled)

end

/-! ## The commands that reach the flags and the enables -/

section

variable {s : State}

theorem execFlagSetRequest_asked {f : Flag} (h : f ∈ s.mail.flagRequests) :
    execFlagSetRequest f s = .next
      { s with
        port := { s.port with flags := s.port.flags.set f }
        mail := { s.mail with flagRequests := s.mail.flagRequests.erase f } } :=
  congrArg _ (if_pos (List.contains_iff_mem.2 h))

theorem execFlagSetRequest_unasked {f : Flag} (h : f ∉ s.mail.flagRequests) : execFlagSetRequest f s = .next s :=
  congrArg _ (if_neg fun hc => h (List.contains_iff_mem.1 hc))

/-- A command code that is 0 or 6 to 15 is none of the five commands. -/
theorem partCommandOf_eq_none {code : BitVec 4} (h : code = 0 ∨ 6 ≤ code.toNat) :
    code ≠ 5#4 ∧ partCommandOf code = none := by
  revert code
  decide

theorem execEnableWrite_noCommand {value : Word} (hpin : s.port.resetPin = false)
    (hcode : value.extractLsb' 0 4 = 0 ∨ 6 ≤ (value.extractLsb' 0 4).toNat) :
    execEnableWrite value s = .next (s.setEnables (flagBits value)) := by
  obtain ⟨hreset, hnone⟩ := partCommandOf_eq_none hcode
  rw [execEnableWrite, if_neg (by rw [hpin]; decide), if_neg hreset, hnone]

end

/-! ## The statements -/

/-- Settles O5, by whether a request for the flag is under way. -/
theorem flagSetRequestSetsItsFlag : Obligations.FlagSetRequestSetsItsFlag := by
  intro f s
  rw [← FlagSet.set_eq]
  exact ⟨execFlagSetRequest_asked, execFlagSetRequest_unasked⟩

/-- Settles O6: the line by `interruptLine_iff`, for the flags and the enables that each command leaves. -/
theorem interruptLineFollowsFlagsAndEnables : Obligations.InterruptLineFollowsFlagsAndEnables := by
  refine ⟨fun s hpin => interruptLine_iff hpin, fun f s t hpin hasked e => ?_,
    fun f value s t hpin hcode hbit e hflag => ?_, fun begun s t hpin e => ?_,
    fun s => ⟨fun hpin => ?_, fun hpin => ?_⟩⟩
  · obtain rfl := Host.Outcome.next.inj ((execFlagSetRequest_asked hasked).symm.trans e)
    have hset := s.port.flags.get_set_same f
    refine ⟨hset, fun henabled => (interruptLine_iff ?_).2 ⟨f, hset, henabled⟩⟩
    exact hpin
  · obtain rfl := Host.Outcome.next.inj ((execEnableWrite_noCommand hpin hcode).symm.trans e)
    refine (interruptLine_iff ?_).2 ⟨f, hflag, (FlagSet.get_ofBits_flagBits value f).trans hbit⟩
    exact hpin
  · have henables : t.port.enables = .clear := by
      rcases e with e | e
      · obtain rfl := Host.Outcome.next.inj e
        rw [if_neg (by rw [hpin]; decide)]
        rfl
      · obtain rfl := Host.Outcome.next.inj e
        rfl
    have hdisabled (f : Flag) : t.port.enables.get f = false := by rw [henables, FlagSet.get_clear]
    exact ⟨hdisabled, interruptLine_disabled hdisabled⟩
  · refine ⟨interruptLine_held hpin, ?_, ?_⟩
    · rw [State.commitMark, hpin]
      rfl
    · rw [State.panelEnable, hpin]
      rfl
  · constructor
    · rw [State.commitMark, hpin]
      rfl
    · rw [State.panelEnable, hpin]
      simp

end Sys2Proof.Machine
end

section
/-! PROOFS. The register window (09 R157 to R162): what each bit of a register reads as, what a write of each register
does, and the command slot. -/

namespace Sys2Proof.Machine

/-! ## The five flags in a register word (09 R157) -/

namespace FlagSet

theorem toNat_eq_bit (fs : FlagSet) :
    fs.toNat = Nat.bit fs.notify (Nat.bit fs.fault (Nat.bit fs.lane (Nat.bit fs.done (Nat.bit fs.overflow 0)))) := by
  simp only [FlagSet.toNat, Nat.bit_val]
  omega

theorem toNat_lt (fs : FlagSet) : fs.toNat < 2 ^ 5 := by
  have hnotify := fs.notify.toNat_lt
  have hfault := fs.fault.toNat_lt
  have hlane := fs.lane.toNat_lt
  have hdone := fs.done.toNat_lt
  have hoverflow := fs.overflow.toNat_lt
  rw [FlagSet.toNat]
  omega

theorem testBit_toNat_position (fs : FlagSet) (f : Flag) : fs.toNat.testBit (f.position - 16) = fs.get f := by
  rw [toNat_eq_bit]
  cases f <;> simp only [Flag.position, Nat.reduceSub, Nat.testBit_bit_succ, Nat.testBit_bit_zero, FlagSet.get]

theorem testBit_toNat_of_le (fs : FlagSet) {k : Nat} (h : 5 ≤ k) : fs.toNat.testBit k = false :=
  Nat.testBit_lt_two_pow (fs.toNat_lt.trans_le (Nat.pow_le_pow_right Nat.two_pos h))

theorem ofBits_flagBits (value : Word) :
    ofBits (flagBits value) =
      ⟨value.getLsbD 16, value.getLsbD 17, value.getLsbD 18, value.getLsbD 19, value.getLsbD 20⟩ := by
  simp [ofBits, flagBits]

/-- 09 R161: the ones of an STS write clear the flags at their positions. -/
theorem clearBits_flagBits (fs : FlagSet) (value : Word) :
    fs.clearBits (flagBits value) =
      { notify := fs.notify && !value.getLsbD 16, fault := fs.fault && !value.getLsbD 17,
        lane := fs.lane && !value.getLsbD 18, done := fs.done && !value.getLsbD 19,
        overflow := fs.overflow && !value.getLsbD 20 } := by
  simp [clearBits, flagBits]

end FlagSet

theorem Flag.le_position (f : Flag) : 16 ≤ f.position := by cases f <;> decide

/-- The positions of the five flags are 16 to 20. -/
theorem Flag.le_of_no_position {i : Nat} (hpos : ∀ f : Flag, f.position ≠ i) (hi : 16 ≤ i) : 21 ≤ i := by
  have hnotify : 16 ≠ i := hpos .notify
  have hfault : 17 ≠ i := hpos .fault
  have hlane : 18 ≠ i := hpos .lane
  have hdone : 19 ≠ i := hpos .done
  have hoverflow : 20 ≠ i := hpos .overflow
  omega

/-- 09 R157: a register word with five flags at bits 16 to 20, bit by bit. -/
theorem getLsbD_ofNat_add_flags {low : Nat} (hlow : low < 2 ^ 16) (fs : FlagSet) (i : Nat) :
    (BitVec.ofNat 32 (low + fs.toNat * 2 ^ 16)).getLsbD i =
      if i < 16 then low.testBit i else fs.toNat.testBit (i - 16) := by
  rw [BitVec.getLsbD_ofNat, Nat.add_comm, Nat.mul_comm, Nat.testBit_two_pow_mul_add _ hlow]
  by_cases hi : i < 32
  · rw [decide_eq_true hi, Bool.true_and]
  · rw [decide_eq_false hi, Bool.false_and, if_neg (by omega), fs.testBit_toNat_of_le (by omega)]

/-! ## What the registers read as (09 R157, R158, R161, R162) -/

theorem PartState.code_lt (p : PartState) : p.code < 2 ^ 4 := by cases p <;> decide

theorem CommandResult.code_lt (r : CommandResult) : r.code < 2 ^ 4 := by cases r <;> decide

section

variable {s : State}

theorem readRegister_held (h : s.port.resetPin = true) (offset : Nat) : s.readRegister offset = 0 := if_pos h

theorem readRegister_exb (h : s.port.resetPin = false) : s.readRegister 0x00 = s.port.exb := by
  simp [State.readRegister, h]

theorem readRegister_frc (h : s.port.resetPin = false) : s.readRegister 0x0C = s.scan.frameCount := by
  simp [State.readRegister, h]

theorem readRegister_above (h : s.port.resetPin = false) {offset : Nat} (ho : 0x0C < offset) :
    s.readRegister offset = 0 := by
  rw [State.readRegister, h, if_neg Bool.false_ne_true, if_neg (by omega), if_neg (by omega), if_neg (by omega),
    if_neg (by omega)]

/-- 09 R157, R160: CMD reads the enables at bits 16 to 20, and 0 elsewhere. -/
theorem getLsbD_readRegister_cmd (h : s.port.resetPin = false) (i : Nat) :
    (s.readRegister 0x04).getLsbD i = if i < 16 then false else s.port.enables.toNat.testBit (i - 16) := by
  have hcmd : s.readRegister 0x04 = BitVec.ofNat 32 (0 + s.port.enables.toNat * 2 ^ 16) := by
    simp [State.readRegister, h]
  rw [hcmd, getLsbD_ofNat_add_flags (Nat.two_pow_pos 16), Nat.zero_testBit]

/-- 09 R157, R161: STS reads the part state at bits 0 to 3, the last result at bits 4 to 7, command busy at bit 15, the
flags at bits 16 to 20, and 0 elsewhere. -/
theorem getLsbD_readRegister_sts (h : s.port.resetPin = false) (i : Nat) :
    (s.readRegister 0x08).getLsbD i =
      if i < 16 then
        if i < 15 then if i < 4 then s.mode.part.code.testBit i else s.port.lastResult.code.testBit (i - 4)
        else s.port.inHand.isSome
      else s.port.flags.toNat.testBit (i - 16) := by
  have hpart := s.mode.part.code_lt
  have hresult := s.port.lastResult.code_lt
  have hbusy := s.port.inHand.isSome.toNat_lt
  have hsts : s.readRegister 0x08 = BitVec.ofNat 32
      ((2 ^ 15 * s.port.inHand.isSome.toNat + (2 ^ 4 * s.port.lastResult.code + s.mode.part.code)) +
        s.port.flags.toNat * 2 ^ 16) := by
    have hsum : s.mode.part.code + s.port.lastResult.code * 2 ^ 4 + s.port.busy.toNat * 2 ^ 15 =
        2 ^ 15 * s.port.inHand.isSome.toNat + (2 ^ 4 * s.port.lastResult.code + s.mode.part.code) := by
      rw [RegisterPort.busy]
      omega
    rw [← hsum, State.readRegister, h]
    rfl
  rw [hsts, getLsbD_ofNat_add_flags (by omega), Nat.testBit_two_pow_mul_add _ (by omega),
    Nat.testBit_two_pow_mul_add _ hpart]
  by_cases hi : i < 16
  · by_cases h15 : i < 15
    · rw [if_pos hi, if_pos hi, if_pos h15, if_pos h15]
    · obtain rfl : i = 15 := by omega
      rw [if_pos hi, if_pos hi, if_neg h15, if_neg h15]
      cases s.port.inHand.isSome <;> decide
  · rw [if_neg hi, if_neg hi]

/-- 09 R157, R161: bits 0 to 3 of STS. -/
theorem extractLsb'_readRegister_sts_part (h : s.port.resetPin = false) :
    (s.readRegister 0x08).extractLsb' 0 4 = BitVec.ofNat 4 s.mode.part.code := by
  refine BitVec.eq_of_getLsbD_eq fun i hi => ?_
  rw [BitVec.getLsbD_extractLsb', BitVec.getLsbD_ofNat, Nat.zero_add, getLsbD_readRegister_sts h,
    if_pos (by omega), if_pos (by omega), if_pos hi]

/-- 09 R157, R161: bits 4 to 7 of STS. -/
theorem extractLsb'_readRegister_sts_result (h : s.port.resetPin = false) :
    (s.readRegister 0x08).extractLsb' 4 4 = BitVec.ofNat 4 s.port.lastResult.code := by
  refine BitVec.eq_of_getLsbD_eq fun i hi => ?_
  rw [BitVec.getLsbD_extractLsb', BitVec.getLsbD_ofNat, getLsbD_readRegister_sts h, if_pos (by omega),
    if_pos (by omega), if_neg (by omega), Nat.add_sub_cancel_left]

/-- 09 R157: the bits of STS that the table does not list. -/
theorem getLsbD_readRegister_sts_unlisted (h : s.port.resetPin = false) {i : Nat} (hi : 7 < i) (h15 : i ≠ 15)
    (hpos : ∀ f : Flag, f.position ≠ i) : (s.readRegister 0x08).getLsbD i = false := by
  rw [getLsbD_readRegister_sts h]
  by_cases hlow : i < 16
  · have hcode : s.port.lastResult.code < 2 ^ (i - 4) :=
      s.port.lastResult.code_lt.trans_le (Nat.pow_le_pow_right Nat.two_pos (by omega))
    rw [if_pos hlow, if_pos (by omega), if_neg (by omega), Nat.testBit_lt_two_pow hcode]
  · have hhigh := Flag.le_of_no_position hpos (by omega)
    rw [if_neg hlow, FlagSet.testBit_toNat_of_le _ (by omega)]

/-- 09 R157: the bits of CMD that the table does not list, the command field among them. -/
theorem getLsbD_readRegister_cmd_unlisted (h : s.port.resetPin = false) {i : Nat}
    (hpos : ∀ f : Flag, f.position ≠ i) : (s.readRegister 0x04).getLsbD i = false := by
  rw [getLsbD_readRegister_cmd h]
  by_cases hlow : i < 16
  · rw [if_pos hlow]
  · have hhigh := Flag.le_of_no_position hpos (by omega)
    rw [if_neg hlow, FlagSet.testBit_toNat_of_le _ (by omega)]

/-- 09 R158: the byte at an offset is taken from the register at the multiple of 4 below it. -/
theorem readRegisterByte_eq (offset : Nat) :
    s.readRegisterByte offset = (s.readRegister (offset / 4 * 4)).extractLsb' (offset % 4 * 8) 8 := by
  rw [State.readRegisterByte, Nat.mul_comm 4, Nat.mul_comm 8]

/-! ## Writes of the registers (09 R158 to R161) -/

theorem execExbWrite_taken {value : Word} (hpin : s.port.resetPin = false) :
    execExbWrite value s = .next
      (if s.mode.part = .off ∧ s.port.inHand = none then { s with port := { s.port with exb := value } } else s) := by
  have hbusy : s.port.busy = false ↔ s.port.inHand = none :=
    Option.isSome_eq_false_iff.trans Option.isNone_iff_eq_none
  simp only [execExbWrite, hpin, hbusy, true_and]

theorem execStsWrite_taken {value : Word} (hpin : s.port.resetPin = false) :
    execStsWrite value s = .next
      { s with
        port := { s.port with flags := s.port.flags.clearBits (flagBits value) }
        mail := { s.mail with overflowClears := s.mail.overflowClears + (value.getLsbD 20).toNat } } := by
  rw [execStsWrite, hpin, if_neg Bool.false_ne_true]
  cases value.getLsbD 20 <;> rfl

/-- 09 R158: no register is written while the reset pin is held. -/
theorem registerWrites_held (hpin : s.port.resetPin = true) (value : Word) (c : PartCommand) (e : BitVec 5)
    (begun : Begun) :
    execExbWrite value s = .next s ∧ execStsWrite value s = .next s ∧ execEnableWrite value s = .next s ∧
      s.command c (.write e) = s ∧ execReset begun s = .next s := by
  refine ⟨congrArg _ (if_neg fun ⟨hreleased, _⟩ => ?_), congrArg _ (if_pos hpin), congrArg _ (if_pos hpin),
    if_pos hpin, congrArg _ (if_pos hpin)⟩
  exact Bool.false_ne_true (hreleased.symm.trans hpin)

/-- A part command, written or handed over, goes to the command slot. -/
theorem exec_partCommand (c : PartCommand) (source : CmdSource) :
    exec (c.instr source) s = .next (s.command c source) := by cases c <;> rfl

theorem command_write (hpin : s.port.resetPin = false) (c : PartCommand) (e : BitVec 5) :
    s.command c (.write e) = (s.setEnables e).commandArrives c := if_neg (Bool.eq_false_iff.1 hpin)

/-- RESET's code is none of those that go to the command slot. -/
theorem ne_reset_of_partCommandOf {code : BitVec 4} {c : PartCommand} (h : partCommandOf code = some c) :
    code ≠ 5#4 := by
  rintro rfl
  cases h

/-- Log 12: ENABLE_WRITE with the code of a part command acts as that command. -/
theorem execEnableWrite_partCommand {value : Word} {c : PartCommand} (hpin : s.port.resetPin = false)
    (hcode : partCommandOf (value.extractLsb' 0 4) = some c) :
    execEnableWrite value s = .next (s.command c (.write (flagBits value))) := by
  rw [execEnableWrite, if_neg (Bool.eq_false_iff.1 hpin), if_neg (ne_reset_of_partCommandOf hcode), hcode,
    command_write hpin]

/-- Log 12: ENABLE_WRITE with the code of RESET acts as RESET with no transaction begun. -/
theorem execEnableWrite_reset {value : Word} (hcode : value.extractLsb' 0 4 = 5#4) :
    execEnableWrite value s = execReset none s := by
  rw [execEnableWrite, execReset, completeBegun_none, if_pos hcode]

/-! ## The command slot (09 R160) -/

theorem takeHanded_of_not {c : PartCommand}
    (h : ¬ (s.mode.command = .handed ∧ s.port.inHand = some c ∧ s.mode.endingsAwaited = false)) :
    s.takeHanded c = s := if_neg h

/-- A command that finds the slot empty is in hand, and handed over at once. -/
theorem commandArrives_empty (c : PartCommand) (hhand : s.port.inHand = none) :
    s.commandArrives c =
      { s with
        port := { s.port with inHand := some c }
        mode := { s.mode with command := .handed } }.takeHanded c := by
  rw [State.commandArrives, hhand]

theorem commandArrives_behind {first : PartCommand} (c : PartCommand) (hhand : s.port.inHand = some first)
    (hwait : s.port.waiting = none) :
    s.commandArrives c = { s with port := { s.port with waiting := some c } } := by
  rw [State.commandArrives, hhand, hwait]

theorem commandArrives_full {first next : PartCommand} (c : PartCommand) (hhand : s.port.inHand = some first)
    (hwait : s.port.waiting = some next) :
    s.commandArrives c = { s with port := { s.port with lastResult := .refusedBusy } } := by
  rw [State.commandArrives, hhand, hwait]

theorem execCommandResult_unanswered (h : ∀ r, s.mode.command ≠ .answered r) : execCommandResult s = .next s := by
  refine congrArg Host.Outcome.next ?_
  split
  · exact absurd ‹_› (h _)
  · rfl

end

/-! ## The statements -/

/-- Settles O3: each register by its bits. -/
theorem registerReads : Obligations.RegisterReads := by
  refine ⟨rfl, rfl, fun s => ⟨readRegister_held, fun hpin => ?_, fun offset => readRegisterByte_eq offset⟩⟩
  refine ⟨readRegister_exb hpin, fun f => ?_, fun i hpos => getLsbD_readRegister_cmd_unlisted hpin hpos,
    extractLsb'_readRegister_sts_part hpin, extractLsb'_readRegister_sts_result hpin, getLsbD_readRegister_sts hpin 15,
    fun f => ?_, fun i hi h15 hpos => getLsbD_readRegister_sts_unlisted hpin hi h15 hpos, readRegister_frc hpin,
    fun offset ho => readRegister_above hpin ho⟩
  · rw [getLsbD_readRegister_cmd hpin, if_neg (Flag.le_position f).not_gt, FlagSet.testBit_toNat_position]
  · rw [getLsbD_readRegister_sts hpin, if_neg (Flag.le_position f).not_gt, FlagSet.testBit_toNat_position]

/-- Settles O4: each register with the pin not held, then the writes that change nothing. -/
theorem registerWrites : Obligations.RegisterWrites := by
  refine ⟨fun value s hpin => ⟨execExbWrite_taken hpin, ?_, fun hcode => ?_, fun c hcode => ?_,
    execEnableWrite_reset⟩, fun offset width value s => rfl, fun value c e begun s hpin => ?_⟩
  · rw [← FlagSet.clearBits_flagBits]
    exact execStsWrite_taken hpin
  · rw [← FlagSet.ofBits_flagBits]
    exact execEnableWrite_noCommand hpin hcode
  · exact (execEnableWrite_partCommand hpin hcode).trans (exec_partCommand c _).symm
  · obtain ⟨hexb, hsts, henables, hcommand, hreset⟩ := registerWrites_held hpin value c e begun
    exact ⟨hexb, hsts, henables, (exec_partCommand c _).trans (congrArg _ hcommand), hreset⟩

/-- Settles O7, by what the slot holds when a command is written, and by the command in hand when its result is
shown. -/
theorem commandsGoThroughTheSlot : Obligations.CommandsGoThroughTheSlot := by
  refine ⟨fun c s => ⟨fun e hpin => ?_, fun h => ?_⟩,
    fun s => ⟨fun r c hanswer hwait => ?_, fun r hanswer hwait => ?_, execCommandResult_unanswered⟩⟩
  · have hwritten : exec (c.instr (.write e)) s = .next ((s.setEnables e).commandArrives c) :=
      (exec_partCommand c _).trans (congrArg _ (command_write hpin c e))
    refine ⟨fun hhand => ?_, fun h hhand hwait => ?_, fun h w hhand hwait => ?_⟩
    · rw [exec_partCommand c .handedOver]
      exact hwritten.trans (congrArg _ (commandArrives_empty c hhand))
    · exact hwritten.trans (congrArg _ (commandArrives_behind c hhand hwait))
    · exact hwritten.trans (congrArg _ (commandArrives_full c hhand hwait))
  · exact (exec_partCommand c _).trans (congrArg _ (takeHanded_of_not h))
  · show execCommandResult s = _
    rw [execCommandResult, hanswer, hwait]
  · show execCommandResult s = _
    rw [execCommandResult, hanswer, hwait]

end Sys2Proof.Machine
end

section
/-! PROOFS. The queue of commands (logs 1 and 2): a step takes its front command, and every command answers a next state
and leaves the queue as it finds it. -/

namespace Sys2Proof.Machine

section

variable (s : State)

/-! ## The shared operations leave the queue alone -/

@[simp] theorem State.pending_ite (p : Prop) [Decidable p] (a b : State) :
    (if p then a else b).pending = if p then a.pending else b.pending := apply_ite ..

/-! ### The Line Store, the Scan Unit and the Commit Unit -/

@[simp] theorem State.serveRead_pending (n : Nat) (flaws : List (Nat × Flaw)) :
    (s.serveRead n flaws).pending = s.pending := (keeps_serveRead s n flaws).pending
@[simp] theorem State.startFrame_pending (moment : Nat) : (s.startFrame moment).pending = s.pending := rfl
@[simp] theorem State.haltScan_pending : s.haltScan.pending = s.pending := (keeps_haltScan s).pending
@[simp] theorem State.haltTaken_pending : s.haltTaken.pending = s.pending := (keeps_haltTaken s).pending
@[simp] theorem State.afterRow_pending (row : Nat) : (s.afterRow row).pending = s.pending :=
  (keeps_afterRow s row).pending
@[simp] theorem State.reportRowDamage_pending (row : Nat) : (s.reportRowDamage row).pending = s.pending :=
  (keeps_reportRowDamage s row).pending
@[simp] theorem State.completePublication_pending : s.completePublication.pending = s.pending := rfl

/-! ### The Fault Recorder and the Grant Arbiter -/

@[simp] theorem State.takeFault_pending : s.takeFault.pending = s.pending := (keeps_takeFault s).pending
@[simp] theorem State.dropFault_pending : s.dropFault.pending = s.pending := (keeps_dropFault s).pending
@[simp] theorem State.recorderFails_pending : s.recorderFails.pending = s.pending := (keeps_recorderFails s).pending
@[simp] theorem State.trySelect_pending : s.trySelect.pending = s.pending := (keeps_trySelect s).pending

/-! ### The Apply Engine -/

@[simp] theorem State.abortSet_pending (sl : Slot) (unwind : Bool) (o : SetOutcome) (i : Option Nat) :
    (s.abortSet sl unwind o i).pending = s.pending := rfl
@[simp] theorem State.opDone_pending (sl : Slot) : (s.opDone sl).pending = s.pending := rfl
@[simp] theorem State.beginOp_pending (sl : Slot) (op : OpRecord) (k : OpKind) :
    (s.beginOp sl op k).pending = s.pending := (keeps_beginOp s sl op k).pending
@[simp] theorem State.lineNamed_pending (sl : Slot) (op : OpRecord) (line : Nat) :
    (s.lineNamed sl op line).pending = s.pending := (keeps_lineNamed s sl op line).pending
@[simp] theorem State.spansDone_pending (sl : Slot) (op : OpRecord) : (s.spansDone sl op).pending = s.pending :=
  (keeps_spansDone s sl op).pending
@[simp] theorem State.damageMet_pending (sl : Slot) (line row : Nat) (newly : Bool) :
    (s.damageMet sl line row newly).pending = s.pending := (keeps_damageMet s sl line row newly).pending
@[simp] theorem State.requestAbort_pending (sl : Slot) (c : AbortCause) :
    (s.requestAbort sl c).pending = s.pending := (keeps_requestAbort s sl c).pending

/-! ### The Lane Service -/

@[simp] theorem State.work_pending (ts : List LaneTask) : (State.work ts s).pending = s.pending :=
  (keeps_work s ts).pending
@[simp] theorem State.haltLane_pending (l : Lane) (c : FaultCode) (a : Word) (n : Half) :
    (s.haltLane l c a n).pending = s.pending := (keeps_haltLane s l c a n).pending
@[simp] theorem State.followLink_pending (l : Lane) (link : Word) : (s.followLink l link).pending = s.pending :=
  (keeps_followLink s l link).pending
@[simp] theorem State.requestStep_pending (l : Lane) (r : LaneRecord) : (s.requestStep l r).pending = s.pending :=
  (keeps_requestStep s l r).pending
@[simp] theorem State.fetch_pending (j : BoundaryJob) (h : HeaderCopy) (frame : Word) :
    (s.fetch j h frame).pending = s.pending := rfl
@[simp] theorem State.stopAll_pending : s.stopAll.pending = s.pending := rfl

/-! ### The Mode Controller and the Register Port -/

@[simp] theorem State.returnToActive_pending : s.returnToActive.pending = s.pending := rfl
@[simp] theorem State.enterStopping_pending : s.enterStopping.pending = s.pending := rfl
@[simp] theorem State.rampDown_pending : s.rampDown.pending = s.pending := rfl
@[simp] theorem State.rampUp_pending : s.rampUp.pending = s.pending := rfl
@[simp] theorem State.startNotice_pending : s.startNotice.pending = s.pending := rfl
@[simp] theorem State.acceptPlan_pending (p : Plan) : (s.acceptPlan p).pending = s.pending := rfl
@[simp] theorem State.tryHold_pending : s.tryHold.pending = s.pending := (keeps_tryHold s).pending
@[simp] theorem State.faultReport_pending : s.faultReport.pending = s.pending := (keeps_faultReport s).pending
@[simp] theorem State.commandArrives_pending (c : PartCommand) : (s.commandArrives c).pending = s.pending :=
  (keeps_commandArrives s c).pending

/-! ## The commands -/

/-- The command answers with a state that has the queue of `s`. -/
def State.LeavesQueue (s : State) (r : Result) : Prop := ∃ t, r = .next t ∧ t.pending = s.pending

theorem leavesQueue {s t : State} (h : t.pending = s.pending) : s.LeavesQueue (.next t) := ⟨t, rfl, h⟩

/-! ### Commands that read the bus before they decide -/

theorem leavesQueue_execPlanRead (bus : BusEvent) : s.LeavesQueue (execPlanRead bus s) := by
  refine leavesQueue ?_
  split
  · dsimp only
    split
    · simp
    · split <;> simp
  · rfl

theorem leavesQueue_execLaneSetup (bus : BusEvent) : s.LeavesQueue (execLaneSetup bus s) := by
  refine leavesQueue ?_
  split
  · dsimp only
    split <;> simp
  · rfl

theorem leavesQueue_execLaneRequestRead (bus : BusEvent) : s.LeavesQueue (execLaneRequestRead bus s) := by
  refine leavesQueue ?_
  split
  · split
    · dsimp only
      split
      · simp
      · split
        · simp
        · rw [State.work_pending]
          split <;> simp
    · rfl
  · rfl

theorem leavesQueue_execNextLinkRead (bus : BusEvent) : s.LeavesQueue (execNextLinkRead bus s) := by
  refine leavesQueue ?_
  split
  · split
    · dsimp only
      split <;> simp
    · rfl
  · rfl

theorem leavesQueue_execHeaderRead (bus : BusEvent) : s.LeavesQueue (execHeaderRead bus s) := by
  refine leavesQueue ?_
  split
  · split
    · dsimp only
      split
      · simp
      · split <;> simp
    all_goals rfl
  · rfl

theorem leavesQueue_execTrailerReadStart (bus : BusEvent) : s.LeavesQueue (execTrailerReadStart bus s) := by
  refine leavesQueue ?_
  split
  · dsimp only
    split <;> simp
  · rfl

theorem leavesQueue_execOpRecordRead (bus : BusEvent) : s.LeavesQueue (execOpRecordRead bus s) := by
  refine leavesQueue ?_
  split
  · dsimp only
    split
    · simp
    · simp
    · split <;> simp
  · rfl

theorem leavesQueue_execSourceRowRead (bus : BusEvent) : s.LeavesQueue (execSourceRowRead bus s) := by
  refine leavesQueue ?_
  split
  · split
    · rfl
    · dsimp only
      split
      · simp
      · simp
      · split <;> simp
  · rfl

theorem leavesQueue_execTrailerReadEnd (bus : BusEvent) : s.LeavesQueue (execTrailerReadEnd bus s) := by
  refine leavesQueue ?_
  split
  · dsimp only
    split <;> simp
  · rfl

theorem leavesQueue_execFaultSearchRead (bus : BusEvent) : s.LeavesQueue (execFaultSearchRead bus s) := by
  refine leavesQueue ?_
  split
  · dsimp only
    split <;> simp
  · rfl

/-! ### Commands that end a bus write -/

theorem leavesQueue_execLaneRecordWrite (bus : BusEvent) : s.LeavesQueue (execLaneRecordWrite bus s) := by
  refine leavesQueue ?_
  split
  · rfl
  · split <;> simp

theorem leavesQueue_execReadbackRowWrite (bus : BusEvent) : s.LeavesQueue (execReadbackRowWrite bus s) := by
  refine leavesQueue ?_
  split
  · split
    · rfl
    · dsimp only
      split <;> simp
  · rfl

/-! ### Commands that take an answer or a message -/

theorem leavesQueue_execEnableWrite (value : Word) : s.LeavesQueue (execEnableWrite value s) := by
  refine leavesQueue ?_
  split
  · rfl
  · split
    · rfl
    · split <;> simp

theorem leavesQueue_execBoundaryEvaluation : s.LeavesQueue (execBoundaryEvaluation s) := by
  refine leavesQueue ?_
  split
  · dsimp only
    split <;> simp
  · rfl

theorem leavesQueue_execReleaseNotice : s.LeavesQueue (execReleaseNotice s) := by
  refine leavesQueue ?_
  split
  · rfl
  · dsimp only
    split <;> simp

theorem leavesQueue_execAbortRequestStop : s.LeavesQueue (execAbortRequestStop s) := by
  refine leavesQueue ?_
  split
  · dsimp only
    split <;> simp
  · rfl

theorem leavesQueue_execAbortRequestLane : s.LeavesQueue (execAbortRequestLane s) := by
  refine leavesQueue ?_
  split
  · rfl
  · dsimp only
    split <;> simp

theorem leavesQueue_execAliasClaim (flaws : List (Nat × Flaw)) : s.LeavesQueue (execAliasClaim flaws s) := by
  refine leavesQueue ?_
  split
  · split
    · rfl
    · dsimp only
      split <;> simp
  · rfl

/-! ### Every command -/

/-- Every command tests whether its occasion is there, some then what they find with it; each branch is a chain of
shared operations, and the queue passes through each of them. -/
theorem exec_leavesQueue (c : Instr) : s.LeavesQueue (exec c s) := by
  cases c with
  | registerWriteIgnored _ _ _ => exact leavesQueue rfl
  | start _ | stop _ | sleep _ | wake _ => exact leavesQueue (keeps_command s _ _).pending
  | powerOnReset begun | resetPinAsserted begun => exact leavesQueue (completeBegun_pending s begun)
  | reset begun =>
    refine leavesQueue ?_
    split
    · rfl
    · exact completeBegun_pending s begun
  -- one test, of the occasion
  | exbWrite _ | stsWrite _ | flagSetRequest _ | setupComplete | rampUpEnd _ | rampDownEnd _ | sleepingQuiesced
  | stoppingEngineIdle | stoppingComplete | sleepStopEndingsDone | frameStart _ | commitMarkEnd _ | grantRequest
  | startingLineFill | damageLimitReport | recorderFailureReport | rowOutput _ | beginOrder | beginWithBlankFrame
  | frameCadence | heldCadence | haltScanning | publicationReport | readyAppend | commitBoundary
  | publicationComplete | committedOutcomeWrite _ | laneBoundary | completionReport | pollReport | eligibilityReport
  | grantAnswer | arbiterBoundary | viewRead | liveRead | writeClaim | unwindClaim | publishClaim | markNotice
  | spanWrite | faultRequest _ | faultEntryWrite _ | overflowClear =>
    refine leavesQueue ?_
    split <;> simp
  -- the occasion, then what is found with it
  | finishOrder | commandResult | grant | shiftClaim | shiftClaimAnswer | viewReadAnswer | aliasClaimAnswer
  | writeClaimAnswer | unwindAnswer | abortOutcomeWrite _ | stopNotice =>
    refine leavesQueue ?_
    split
    · split <;> simp
    · rfl
  -- one of two units, and its occasion
  | lineRead _ _ | wholeLineWrite _ =>
    refine leavesQueue ?_
    split
    · split <;> simp
    · split <;> simp
  -- one of two occasions, then what is found with it
  | endReport _ | engineLineReadAnswer | engineLineWriteDone =>
    refine leavesQueue ?_
    split
    · split <;> simp
    · split <;> simp
    · rfl
  | enableWrite value => exact leavesQueue_execEnableWrite s value
  | planRead bus => exact leavesQueue_execPlanRead s bus
  | laneSetup bus => exact leavesQueue_execLaneSetup s bus
  | boundaryEvaluation => exact leavesQueue_execBoundaryEvaluation s
  | laneRequestRead bus => exact leavesQueue_execLaneRequestRead s bus
  | nextLinkRead bus => exact leavesQueue_execNextLinkRead s bus
  | headerRead bus => exact leavesQueue_execHeaderRead s bus
  | laneRecordWrite bus => exact leavesQueue_execLaneRecordWrite s bus
  | trailerReadStart bus => exact leavesQueue_execTrailerReadStart s bus
  | opRecordRead bus => exact leavesQueue_execOpRecordRead s bus
  | sourceRowRead bus => exact leavesQueue_execSourceRowRead s bus
  | readbackRowWrite bus => exact leavesQueue_execReadbackRowWrite s bus
  | trailerReadEnd bus => exact leavesQueue_execTrailerReadEnd s bus
  | releaseNotice => exact leavesQueue_execReleaseNotice s
  | abortRequestStop => exact leavesQueue_execAbortRequestStop s
  | abortRequestLane => exact leavesQueue_execAbortRequestLane s
  | aliasClaim flaws => exact leavesQueue_execAliasClaim s flaws
  | faultSearchRead bus => exact leavesQueue_execFaultSearchRead s bus

end

/-! ## The statements -/

/-- Settles O2: every command leaves the queue, whatever the state. -/
theorem everyCommandAnswers : Obligations.EveryCommandAnswers := fun c s => exec_leavesQueue s c

/-- Settles O1, by whether the queue holds a command. -/
theorem stepRunsTheFrontCommand : Obligations.StepRunsTheFrontCommand := by
  refine ⟨fun c rest s hfront => ?_, fun s hempty => ?_⟩
  · rw [step, hfront]
  · rw [step, hempty]

end Sys2Proof.Machine
end
